-- ==== Sys2Proof/Word.lean ====
section
/-! DEFINITION. The bit-vector types of the block: a bus word, a stored value, a window offset, a byte of a share file. -/

namespace Sys2Proof

/-- One bus word, and one command word (R38, R43, R53). -/
abbrev Word := BitVec 32

/-- One stored value: a register A, B, R or one array entry (R5, R6 FIELD_BITS). -/
abbrev Half := BitVec 16

/-- A byte offset inside the register window (R36, R6 OFFSET_BITS). -/
abbrev Offset := BitVec 13

/-- A byte of the share wire format, and a byte lane of the bus (R45, R66). -/
abbrev Byte := BitVec 8

end Sys2Proof
end

