-- ==== Sys2Proof/Config.lean ====
section
/-! DEFINITION. What is fixed for the machine (the implementation parameters of R6), the parameters the spec leaves OPEN,
and the one free value (R40). -/

namespace Sys2Proof.Config

/-- P, the field modulus (R4, R6). No command, register or pin can change it. -/
abbrev prime : Nat := 65521

/-- K_MAX, N_MAX and M_MAX: the largest count a command field can carry (R6, R55). -/
abbrev countMax : Nat := 255

/-- ARRAY_DEPTH: the number of entries of COEF, PX, PY and SY (R6). -/
abbrev arrayDepth : Nat := 256

/-- The size in bytes of the register window (R36, R6 OFFSET_BITS). -/
abbrev windowBytes : Nat := 0x2000

/-- FREE VALUE (R40, S1; log entry 1). `freeRead n` is what the n-th read of a data location made while BUSY = 1 returns: the
spec leaves it unspecified, so nothing constrains it. It has no body, so no proof can learn a value of it. -/
opaque freeRead : Nat → Word

/-- HEX_CASE (R69, D20), OPEN: the letter case a writer of share files uses for the digits a to f. Every writer takes it as an
argument. -/
inductive HexCase where
  | lower
  | upper
  deriving DecidableEq, Repr

/-- HOST_ORDERING (R49, D43), OPEN: whether the host's interconnect keeps the order of writes to the block. -/
inductive HostOrdering where
  | keepsOrder
  | mayReorder
  deriving DecidableEq, Repr

end Sys2Proof.Config
end

