-- ==== Sys2Proof/Syntax.lean ====
section
/-! DEFINITION. The commands of the block: one constructor for each row of spec/opcode_table.json (R57). -/

namespace Sys2Proof

/-- A command, as 30_encoding.md rule R61 names it. The block's instruction set is its command set (R3). A count is the natural
number its 8-bit field carries (R55): `WellFormed.lean` says which counts a field can carry. -/
inductive Instr where
  /-- NOP (R95). -/
  | nop
  /-- ADD (R72). -/
  | add
  /-- SUB (R73). -/
  | sub
  /-- MUL (R74). -/
  | mul
  /-- INV (R77). -/
  | inv
  /-- DIV (R78). -/
  | div
  /-- EVAL K (R83): `k` coefficients. -/
  | eval (k : Nat)
  /-- SPLIT K, N (R85): threshold `k`, share count `n`. -/
  | split (k n : Nat)
  /-- INTERP M, K (R93): `m` points supplied, claimed threshold `k`. -/
  | interp (m k : Nat)
  /-- WIPE (R96). -/
  | wipe
  deriving DecidableEq, Repr

/-- Why a command word is ILLEGAL (R54, R56, R58, R59). The block reports all four alike, as ILLEGAL_COMMAND (R97). -/
inductive DecodeError where
  /-- RSV1 = w[31:24] is not 0 (R56). -/
  | rsv1NotZero
  /-- RSV0 = w[7:4] is not 0 (R56). -/
  | rsv0NotZero
  /-- OP is one of 0xA to 0xF (R54). -/
  | reservedOp
  /-- A parameter field that the command does not use is not 0 (R58). -/
  | unusedFieldNotZero
  deriving DecidableEq, Repr

end Sys2Proof
end

