-- ==== Sys2Proof/WellFormed.lean ====
section
/-! DEFINITION. Which commands a command word can carry: every count fits its unsigned 8-bit field (R55). -/

namespace Sys2Proof

/-- The count P1 carries, where the command uses P1 (R57). -/
def Instr.count1 : Instr → Option Nat
  | .eval k => some k
  | .split k _ => some k
  | .interp m _ => some m
  | .nop => none
  | .add => none
  | .sub => none
  | .mul => none
  | .inv => none
  | .div => none
  | .wipe => none

/-- The count P2 carries, where the command uses P2 (R57). -/
def Instr.count2 : Instr → Option Nat
  | .split _ n => some n
  | .interp _ k => some k
  | .eval _ => none
  | .nop => none
  | .add => none
  | .sub => none
  | .mul => none
  | .inv => none
  | .div => none
  | .wipe => none

/-- A count that an unsigned 8-bit field carries (R55); an absent count is never too large. -/
def countFits : Option Nat → Bool
  | none => true
  | some c => c ≤ Config.countMax

/-- `i` can be written as a command word: both counts fit their fields (R55, R63). The value 0 fits: it is rejected when the
command runs, not by the encoding (R59). -/
abbrev Instr.WellFormed (i : Instr) : Prop :=
  countFits i.count1 = true ∧ countFits i.count2 = true

end Sys2Proof
end

