-- ==== Sys2Proof/Decode.lean ====
section
/-! DEFINITION. The command word (R53 to R61): its fields, the decoder, the encoder, and the opcode table as mask and match. -/

namespace Sys2Proof

/-- OP = w[3:0] (R53). -/
def opOf (w : Word) : BitVec 4 := w.extractLsb' 0 4

/-- RSV0 = w[7:4] (R53). -/
def rsv0Of (w : Word) : BitVec 4 := w.extractLsb' 4 4

/-- P1 = w[15:8] (R53). -/
def p1Of (w : Word) : BitVec 8 := w.extractLsb' 8 8

/-- P2 = w[23:16] (R53). -/
def p2Of (w : Word) : BitVec 8 := w.extractLsb' 16 8

/-- RSV1 = w[31:24] (R53). -/
def rsv1Of (w : Word) : BitVec 8 := w.extractLsb' 24 8

/-- A command that uses neither parameter field: both must be 0 (R58). -/
def decodePlain (w : Word) (i : Instr) : Except DecodeError Instr :=
  if p1Of w = 0 ∧ p2Of w = 0 then .ok i else .error .unusedFieldNotZero

/-- EVAL, whose P2 is unused (R58, R61). -/
def decodeEval (w : Word) : Except DecodeError Instr :=
  if p2Of w = 0 then .ok (.eval (p1Of w).toNat) else .error .unusedFieldNotZero

/-- The case distinction of R61 on OP, for a word whose reserved bits are 0. -/
def decodeOp (w : Word) : Except DecodeError Instr :=
  match (opOf w).toNat with
  | 0x0 => decodePlain w .nop
  | 0x1 => decodePlain w .add
  | 0x2 => decodePlain w .sub
  | 0x3 => decodePlain w .mul
  | 0x4 => decodePlain w .inv
  | 0x5 => decodePlain w .div
  | 0x6 => decodeEval w
  | 0x7 => .ok (.split (p1Of w).toNat (p2Of w).toNat)
  | 0x8 => .ok (.interp (p1Of w).toNat (p2Of w).toNat)
  | 0x9 => decodePlain w .wipe
  | _ => .error .reservedOp

/-- `decode` of R61: total on every 32-bit word; a word that is ILLEGAL is rejected with the name of the reason. -/
def decode (w : Word) : Except DecodeError Instr :=
  if rsv1Of w ≠ 0 then .error .rsv1NotZero
  else if rsv0Of w ≠ 0 then .error .rsv0NotZero
  else decodeOp w

/-- The operation code of a command (R57). -/
def opcode : Instr → BitVec 4
  | .nop => 0x0
  | .add => 0x1
  | .sub => 0x2
  | .mul => 0x3
  | .inv => 0x4
  | .div => 0x5
  | .eval _ => 0x6
  | .split _ _ => 0x7
  | .interp _ _ => 0x8
  | .wipe => 0x9

/-- A parameter field: the count it carries, and 0 where the command does not use the field (R58). -/
def paramField (c : Option Nat) : BitVec 8 :=
  BitVec.ofNat 8 (c.getD 0)

/-- The command word of a command, laid out as R53 and R57 lay it out: RSV1 | P2 | P1 | RSV0 | OP. -/
def encode (i : Instr) : Word :=
  0#8 ++ paramField i.count2 ++ paramField i.count1 ++ 0#4 ++ opcode i

/-- One row of the command set of R57: the word `w` selects it exactly when `(w & mask) = match`. -/
structure TableRow where
  mask : Word
  value : Word
  deriving DecidableEq, Repr

/-- The row of R57 that a command belongs to. -/
def tableRow : Instr → TableRow
  | .nop => ⟨0xFFFFFFFF, 0x00000000⟩
  | .add => ⟨0xFFFFFFFF, 0x00000001⟩
  | .sub => ⟨0xFFFFFFFF, 0x00000002⟩
  | .mul => ⟨0xFFFFFFFF, 0x00000003⟩
  | .inv => ⟨0xFFFFFFFF, 0x00000004⟩
  | .div => ⟨0xFFFFFFFF, 0x00000005⟩
  | .eval _ => ⟨0xFFFF00FF, 0x00000006⟩
  | .split _ _ => ⟨0xFF0000FF, 0x00000007⟩
  | .interp _ _ => ⟨0xFF0000FF, 0x00000008⟩
  | .wipe => ⟨0xFFFFFFFF, 0x00000009⟩

/-- The ten rows of R57, in the table's order. -/
def opcodeTable : List TableRow :=
  [.nop, .add, .sub, .mul, .inv, .div, .eval 0, .split 0 0, .interp 0 0, .wipe].map tableRow

/-- `w` selects the row (R57). -/
def TableRow.selects (row : TableRow) (w : Word) : Bool :=
  w &&& row.mask = row.value

/-- The host's reading of the decoder: the command of a word numbered as spec/opcode_table.json numbers its bits. `nbits` is the
row's length; every bit above it is 0. A word is 32 bits (R53), and its bit 0 is the least significant bit of the word, as in the
table. -/
def decodeTableWord (nbits w : Nat) : Option Instr :=
  match decode (BitVec.ofNat 32 (w % 2 ^ nbits)) with
  | .ok i => some i
  | .error _ => none

end Sys2Proof
end

