-- ==== Sys2Proof/Machine/State.lean ====
section
/-! DEFINITION. The state of the block (10_state.md rule R15), what stands outside it (the host's pending transactions, the order
in which the agents move, the responses given), the outcomes of a step that are not a next state, and the state after reset. -/

namespace Sys2Proof.Machine

/-- One array of 256 entries of 16 bits (R30 to R33). Every entry is always present, so two arrays that read alike are equal. -/
abbrev Bank := Vector Half Config.arrayDepth

/-- The four arrays. -/
inductive BankName where
  /-- COEF, the polynomial (R30). -/
  | coef
  /-- PX, the x-coordinates (R31). -/
  | px
  /-- PY, the y-coordinates (R32). -/
  | py
  /-- SY, the share values (R33). -/
  | sy
  deriving DecidableEq, Repr

/-- A named location of the address map (R37). -/
inductive Loc where
  | cmd
  | status
  | a
  | b
  | r
  | prime
  | entry (bank : BankName) (i : Fin Config.arrayDepth)
  deriving DecidableEq, Repr

/-- What a 13-bit offset addresses (R37, R42, R44). -/
inductive Target where
  /-- addr[1:0] ≠ 0 (R44). -/
  | misaligned
  /-- An aligned offset that the map reserves (R42). -/
  | reserved
  /-- A named location. -/
  | loc (l : Loc)
  deriving DecidableEq, Repr

/-- What the host does next (R9, R38, R65). -/
inductive HostOp where
  /-- `Read(addr)`. -/
  | read (addr : Offset)
  /-- `Write(addr, data)`. -/
  | write (addr : Offset) (data : Word)
  /-- `poll` (R65): one read of STATUS, repeated until BUSY reads 0. Each repetition is one transaction of its own. -/
  | poll
  deriving DecidableEq, Repr

/-- What a transaction returns (R38). An ERROR response carries rdata 0 (R44). -/
inductive Response where
  | okay (rdata : Word)
  | error
  deriving DecidableEq, Repr

/-- Which agent makes the next step, or that a reset occurs (R9, R113). -/
inductive Turn where
  | host
  | engine
  | reset
  deriving DecidableEq, Repr

/-- The errors the block reports (R100), each by its name there. -/
inductive ErrorCode where
  | argZero
  | argKGtN
  | secretGePrime
  | duplicateX
  | notInvertible
  | tooFewPoints
  | illegalCommand
  deriving DecidableEq, Repr

/-- The whole state: the block's (R15), then the model's own record of what stands outside the block (log entries 2 to 4). -/
structure State where
  /-- CMDREG, the last accepted command word (R22). -/
  cmdReg : Word
  /-- STATUS.BUSY, which is also the hidden pending bit (R24, R34; log entry 5). -/
  busy : Bool
  /-- STATUS.DONE (R25). -/
  done : Bool
  /-- STATUS.ERR (R26). -/
  err : Bool
  /-- STATUS.DROP (R27). -/
  drop : Bool
  /-- STATUS.ERRCODE (R28). ERRCLASS is a function of it and no state (R29). -/
  errCode : BitVec 4
  /-- Operand register A (R18). -/
  a : Half
  /-- Operand register B (R19). -/
  b : Half
  /-- Result register R (R20). -/
  r : Half
  /-- COEF (R30). -/
  coef : Bank
  /-- PX (R31). -/
  px : Bank
  /-- PY (R32). -/
  py : Bank
  /-- SY (R33). -/
  sy : Bank
  /-- The host agent: the transactions it still has to issue, first to last (R9, R38; log entry 2). -/
  host : List HostOp
  /-- Which agent moves next, first to last: the total order of R48 (log entry 3). -/
  turns : List Turn
  /-- The responses given so far, the newest first (R38; log entry 2). -/
  responses : List Response
  /-- How many free values have been drawn: the next unspecified read returns `Config.freeRead draws` (R40; log entry 1). -/
  draws : Nat
  deriving DecidableEq, Repr

/-- The faults of a step: none. Every 32-bit command word has an outcome (R59, R61), every transaction has a response (R38, R44),
and an error is a completion recorded in STATUS, after which the block goes on (R102, R106). So no step of this block stops, and
the type is empty: that is the spec's own statement, and neither safe nor unsafe. -/
inductive Fault where
  deriving DecidableEq, Repr

/-- The refusals of a step. -/
inductive Refusal where
  /-- Raised by `exec` for a command that has no meaning in the model yet. Safe: it proves nothing about the command. No arm of
  `exec` raises it in this model. -/
  | notModelled (mnemonic : String)
  deriving DecidableEq, Repr

/-- The state right after reset (R114): every register and every array entry 0 and no command pending; nothing outside the block
has happened yet (log entries 1 to 3). -/
def State.reset : State where
  cmdReg := 0
  busy := false
  done := false
  err := false
  drop := false
  errCode := 0
  a := 0
  b := 0
  r := 0
  coef := Vector.replicate Config.arrayDepth 0
  px := Vector.replicate Config.arrayDepth 0
  py := Vector.replicate Config.arrayDepth 0
  sy := Vector.replicate Config.arrayDepth 0
  host := []
  turns := []
  responses := []
  draws := 0

end Sys2Proof.Machine
end

