-- ==== Sys2Proof/Machine/Arith.lean ====
section
/-! DEFINITION. The integer arithmetic of the five units, over exact integers (R7, R8): true modulo, the extended Euclidean loop,
the field inverse, Horner's loop, Lagrange's formula at 0 and the duplicate check. -/

namespace Sys2Proof.Machine

/-- `mod(a, b)` (R7): true modulo. For `b > 0` it is the unique `r` in [0, b) with `a - r` divisible by `b`. -/
def trueMod (a b : Int) : Int := a % b

/-- `modp(a)` (R7): every `mod` inside the block has `b = p`. -/
def modp (a : Int) : Int := trueMod a (Config.prime : Nat)

/-- A stored 16-bit value as the unsigned integer a command reads: zero-extended, never sign-extended (R5, R62). -/
def value (v : Half) : Int := (v.toNat : Int)

/-- The 16-bit word that stores an integer of [0, 65535]; the block stores only outputs of `modp` (R8). -/
def toHalf (v : Int) : Half := BitVec.ofInt 16 v

/-- `for i from 0 to n-1: acc <- f i acc`. -/
def countUp {α : Type} (n : Nat) (f : Nat → α → α) (acc : α) : α :=
  match n with
  | 0 => acc
  | i + 1 => f i (countUp i f acc)

/-- `for i from n-1 downto 0: acc <- f i acc`. -/
def countDown {α : Type} (n : Nat) (f : Nat → α → α) (acc : α) : α :=
  match n with
  | 0 => acc
  | i + 1 => countDown i f (f i acc)

/-- The loop of `extended_gcd` (R75). It runs at most `fuel` times; `extendedGcd` gives it enough, since `r` falls at every turn. -/
def extendedGcdLoop (fuel : Nat) (oldR r oldS s oldT t : Int) : Int × Int :=
  match fuel with
  | 0 => (oldS, oldT)
  | more + 1 =>
    if r = 0 then (oldS, oldT)
    else extendedGcdLoop more r (oldR - oldR / r * r) s (oldS - oldR / r * s) t (oldT - oldR / r * t)

/-- `extended_gcd(a, b)` (R75), on non-negative integers that are not both 0: (x, y) with a*x + b*y = gcd(a, b). -/
def extendedGcd (a b : Nat) : Int × Int := extendedGcdLoop (b + 1) a b 1 0 0 1

/-- `inv(a)` (R76): the Bézout coefficient of `modp(a)` relative to p, reduced into [0, p). It is meant for `modp a ≠ 0`: every
caller checks that first. -/
def inv (a : Int) : Int := modp (extendedGcd (modp a).toNat Config.prime).1

/-- `horner(K, x)` (R82) on the polynomial whose coefficient i is `c i`. -/
def horner (c : Nat → Int) (k : Nat) (x : Int) : Int :=
  countDown k (fun i accum => modp (accum * x + c i)) 0

/-- `num_i` of R91: the product over j ≠ i of (0 - x_j). -/
def lagrangeNum (px : Nat → Int) (m i : Nat) : Int :=
  countUp m (fun j num => if j = i then num else modp (num * modp (0 - px j))) 1

/-- `den_i` of R91: the product over j ≠ i of (x_i - x_j). -/
def lagrangeDen (px : Nat → Int) (m i : Nat) : Int :=
  countUp m (fun j den => if j = i then den else modp (den * modp (px i - px j))) 1

/-- `lagrange0(M)` (R91): the value at 0 of the interpolant through the points (px j, py j), j < m. -/
def lagrange0 (px py : Nat → Int) (m : Nat) : Int :=
  countUp m
    (fun i result => modp (result + modp (modp (lagrangeNum px m i * py i) * inv (lagrangeDen px m i)))) 0

/-- The check of R92: some i < j < m have congruent x. -/
def hasDuplicateX (px : Nat → Int) (m : Nat) : Bool :=
  (List.range m).any fun j => (List.range j).any fun i => modp (px i) = modp (px j)

end Sys2Proof.Machine
end

