-- ==== Sys2Proof/Machine/Operands.lean ====
section
/-! DEFINITION. Where a command's operands come from (R62) and where its results go: the arrays and the registers A, B and R. A
command names no register, so these are all the operand forms there are. -/

namespace Sys2Proof.Machine

/-- Entry `i` of an array. The index is below 256 in every command word (R55); past the end, where no command word leads, it is 0. -/
def readEntry (bank : Bank) (i : Nat) : Half := bank.getD i 0

/-- An array with entry `i` set; past the end, where no command word leads, the array itself. -/
def writeEntry (bank : Bank) (i : Nat) (v : Half) : Bank := bank.setIfInBounds i v

/-- An array of zeros (R86, R96, R114). -/
def zeroBank : Bank := Vector.replicate Config.arrayDepth 0

/-- An array of the state. -/
def getBank (s : State) : BankName → Bank
  | .coef => s.coef
  | .px => s.px
  | .py => s.py
  | .sy => s.sy

/-- The state with one array replaced. -/
def setBank (s : State) (name : BankName) (bank : Bank) : State :=
  match name with
  | .coef => { s with coef := bank }
  | .px => { s with px := bank }
  | .py => { s with py := bank }
  | .sy => { s with sy := bank }

/-- Operand A: the first operand, and the abscissa of EVAL (R18, R62). -/
def operandA (s : State) : Int := value s.a

/-- Operand B: the second operand, and the denominator of DIV (R19, R62). -/
def operandB (s : State) : Int := value s.b

/-- COEF[i] as a command reads it (R62, R81). -/
def coefAt (s : State) (i : Nat) : Int := value (readEntry s.coef i)

/-- PX[j] as INTERP reads it (R62, R89). -/
def pxAt (s : State) (j : Nat) : Int := value (readEntry s.px j)

/-- PY[j] as INTERP reads it (R62, R89). -/
def pyAt (s : State) (j : Nat) : Int := value (readEntry s.py j)

/-- `R <- v` (R20). -/
def setR (v : Int) (s : State) : State := { s with r := toHalf v }

/-- `wipe_coef()` (R85, R86). -/
def wipeCoef (s : State) : State := { s with coef := zeroBank }

/-- `for x from 1 to N: SY[x-1] <- y[x]` (R85), where `y x` is the share value at x. -/
def writeShares (y : Nat → Int) (n : Nat) (sy : Bank) : Bank :=
  countUp n (fun i bank => writeEntry bank i (toHalf (y (i + 1)))) sy

end Sys2Proof.Machine
end

