-- ==== Sys2Proof/Machine/Flags.lean ====
section
/-! DEFINITION. The STATUS register: the error codes and classes (R29, R100), the word a read returns (R23, R40) and the effect of
a write to it (R25, R26, R41). The block has no other flags (R35). -/

namespace Sys2Proof.Machine

/-- The numeric code of an error (R100). -/
def errorNumber : ErrorCode → BitVec 4
  | .argZero => 1
  | .argKGtN => 2
  | .secretGePrime => 3
  | .duplicateX => 4
  | .notInvertible => 5
  | .tooFewPoints => 6
  | .illegalCommand => 7

/-- `class(ERRCODE)` (R29): 0 none, 1 ArgumentError, 2 CryptoDomainError. The codes 8 to 15 are never produced (S8); the function
gives them class 0 only to be total. -/
def errorClass (code : BitVec 4) : BitVec 2 :=
  match code.toNat with
  | 1 => 1
  | 2 => 1
  | 7 => 1
  | 3 => 2
  | 4 => 2
  | 5 => 2
  | 6 => 2
  | _ => 0

/-- The 32-bit word a read of STATUS returns (R40), its reserved bits 0 (R23). -/
def statusWord (s : State) : Word :=
  0#18 ++ errorClass s.errCode ++ s.errCode ++ 0#4 ++ BitVec.ofBool s.drop ++ BitVec.ofBool s.err ++ BitVec.ofBool s.done
    ++ BitVec.ofBool s.busy

/-- The effect of a write to STATUS (R41): bits 1, 2 and 3 clear DONE, ERR with ERRCODE, and DROP; all other bits are ignored. A
write with bit 2 set is the acknowledge of R105, the block's return from an error. -/
def writeStatus (data : Word) (s : State) : State :=
  { s with
    done := if data.getLsbD 1 then false else s.done
    err := if data.getLsbD 2 then false else s.err
    errCode := if data.getLsbD 2 then 0 else s.errCode
    drop := if data.getLsbD 3 then false else s.drop }

/-- STATUS.DROP <- 1: a host write was discarded (R27). -/
def setDrop (s : State) : State := { s with drop := true }

end Sys2Proof.Machine
end

