-- ==== Sys2Proof/Machine/Ops.lean ====
section
/-! DEFINITION. The operations that every command and every transaction is made of: the two ends of a command (R99, R101), the
accept of a command (R34), the reset event (R113), and the bus read and write (R36 to R47). -/

namespace Sys2Proof.Machine

/-- `complete_ok()` (R101): the command ends with success. -/
def completeOk (s : State) : State := { s with busy := false, done := true }

/-- `raise Error(code)` (R99, R101): the command ends with an error. This is all there is to taking an exception in this block:
nothing is saved, no mode changes and control goes nowhere (R106). The return from it is the acknowledge, `writeStatus` (R105). -/
def raiseError (e : ErrorCode) (s : State) : State :=
  { s with busy := false, err := true, errCode := errorNumber e }

/-- The accept of a command word (R34). -/
def accept (w : Word) (s : State) : State :=
  { s with cmdReg := w, busy := true, done := false, errCode := 0 }

/-- The reset event (R113 to R115): every piece of the block's state takes its reset value and a pending command is discarded.
What stands outside the block stays (log entry 4). -/
def resetBlock (s : State) : State :=
  { State.reset with host := s.host, turns := s.turns, responses := s.responses, draws := s.draws }

/-- `zext_32` (R18, R43). -/
def zext32 (v : Half) : Word := v.setWidth 32

/-- A written word's bits [15:0]; bits [31:16] are ignored (R18, R43). -/
def lowHalf (data : Word) : Half := data.setWidth 16

/-- The constant a read of PRIME returns (R21). -/
def primeWord : Word := 0x0000FFF1

/-- Entry number of an aligned offset inside an array that begins at `base` (R37). -/
def entryIndex (base n : Nat) : Fin Config.arrayDepth := Fin.ofNat Config.arrayDepth ((n - base) / 4)

/-- The address map (R37), with the reserved offsets (R42). -/
def alignedTarget (n : Nat) : Target :=
  if n = 0x0000 then .loc .cmd
  else if n = 0x0004 then .loc .status
  else if n = 0x0008 then .loc .a
  else if n = 0x000C then .loc .b
  else if n = 0x0010 then .loc .r
  else if n = 0x0014 then .loc .prime
  else if n < 0x0400 then .reserved
  else if n < 0x0800 then .loc (.entry .coef (entryIndex 0x0400 n))
  else if n < 0x0C00 then .loc (.entry .px (entryIndex 0x0800 n))
  else if n < 0x1000 then .loc (.entry .py (entryIndex 0x0C00 n))
  else if n < 0x1400 then .loc (.entry .sy (entryIndex 0x1000 n))
  else .reserved

/-- What an offset addresses: addr[1:0] ≠ 0 is misaligned (R44), the rest is the address map (R37). -/
def targetOf (addr : Offset) : Target :=
  if addr.toNat % 4 ≠ 0 then .misaligned else alignedTarget addr.toNat

/-- The offset at which an array begins (R37). -/
def bankBase : BankName → Nat
  | .coef => 0x0400
  | .px => 0x0800
  | .py => 0x0C00
  | .sy => 0x1000

/-- `offset(loc)` (R37, R64). -/
def offsetOf : Loc → Offset
  | .cmd => 0x0000
  | .status => 0x0004
  | .a => 0x0008
  | .b => 0x000C
  | .r => 0x0010
  | .prime => 0x0014
  | .entry bank i => BitVec.ofNat 13 (bankBase bank + 4 * i.val)

/-- The word stored at a location: what a read of it returns while BUSY = 0 (R40), and at all times for CMD, STATUS and PRIME. -/
def locWord (s : State) : Loc → Word
  | .cmd => s.cmdReg
  | .status => statusWord s
  | .a => zext32 s.a
  | .b => zext32 s.b
  | .r => zext32 s.r
  | .prime => primeWord
  | .entry bank i => zext32 (readEntry (getBank s bank) i.val)

/-- The locations whose reads are unspecified while BUSY = 1 (R40): A, B, R and the arrays. -/
def isData : Loc → Bool
  | .cmd => false
  | .status => false
  | .prime => false
  | .a => true
  | .b => true
  | .r => true
  | .entry _ _ => true

/-- A read of a named location (R40). While BUSY = 1 a data location returns a free value (log entry 1); only the counter of free
values moves. -/
def readLoc (l : Loc) (s : State) : Response × State :=
  if s.busy && isData l then (.okay (Config.freeRead s.draws), { s with draws := s.draws + 1 })
  else (.okay (locWord s l), s)

/-- The bus read (R40), with the misaligned (R44) and the reserved (R42) offsets. -/
def busRead (addr : Offset) (s : State) : Response × State :=
  match targetOf addr with
  | .misaligned => (.error, s)
  | .reserved => (.okay 0, s)
  | .loc l => readLoc l s

/-- A write to CMD (R27, R41): a command issue, discarded while BUSY = 1 or ERR = 1. -/
def writeCmd (data : Word) (s : State) : State :=
  if s.busy || s.err then setDrop s else accept data s

/-- A write to a data location that the host may write (R27, R41): discarded while BUSY = 1, else `store` is done. -/
def writeData (store : State → State) (s : State) : State :=
  if s.busy then setDrop s else store s

/-- `A <- data[15:0]` (R18, R41). -/
def storeA (data : Word) (s : State) : State := { s with a := lowHalf data }

/-- `B <- data[15:0]` (R19, R41). -/
def storeB (data : Word) (s : State) : State := { s with b := lowHalf data }

/-- `target <- data[15:0]` on an entry of an array (R30, R41). -/
def storeEntry (bank : BankName) (i : Nat) (data : Word) (s : State) : State :=
  setBank s bank (writeEntry (getBank s bank) i (lowHalf data))

/-- A write to a named location (R41). R, PRIME and SY ignore it. -/
def writeLoc (l : Loc) (data : Word) (s : State) : State :=
  match l with
  | .cmd => writeCmd data s
  | .status => writeStatus data s
  | .a => writeData (storeA data) s
  | .b => writeData (storeB data) s
  | .r => s
  | .prime => s
  | .entry .coef i => writeData (storeEntry .coef i.val data) s
  | .entry .px i => writeData (storeEntry .px i.val data) s
  | .entry .py i => writeData (storeEntry .py i.val data) s
  | .entry .sy _ => s

/-- The bus write (R41), with the misaligned (R44) and the reserved (R42) offsets. -/
def busWrite (addr : Offset) (data : Word) (s : State) : Response × State :=
  match targetOf addr with
  | .misaligned => (.error, s)
  | .reserved => (.okay 0, s)
  | .loc l => (.okay 0, writeLoc l data s)

end Sys2Proof.Machine
end

