-- ==== Sys2Proof/Machine/Control.lean ====
section
/-! DEFINITION. NOP, WIPE and the illegal command (43_control.md). -/

namespace Sys2Proof.Machine

/-- NOP (R95). -/
def execNop (s : State) : Host.Outcome State Fault Refusal :=
  .next (completeOk s)

/-- The data that WIPE clears (R96): A, B, R and all four arrays. CMDREG and DROP stay. -/
def wipeData (s : State) : State :=
  { s with a := 0, b := 0, r := 0, coef := zeroBank, px := zeroBank, py := zeroBank, sy := zeroBank }

/-- WIPE (R96). -/
def execWipe (s : State) : Host.Outcome State Fault Refusal :=
  .next (completeOk (wipeData s))

/-- The completion of a word that decodes to ILLEGAL (R97). No data is written, and COEF is not wiped even when OP = 0x7. -/
def execIllegal (s : State) : Host.Outcome State Fault Refusal :=
  .next (raiseError .illegalCommand s)

end Sys2Proof.Machine
end

