-- ==== Sys2Proof/Machine/FieldArithmetic.lean ====
section
/-! DEFINITION. ADD, SUB, MUL, INV and DIV (40_field_arithmetic.md). Each meaning is the Engine's completion of that command. -/

namespace Sys2Proof.Machine

/-- A command of this family succeeds with result `v`: it writes R and STATUS, nothing else (R71). -/
def succeedWith (v : Int) (s : State) : Host.Outcome State Fault Refusal :=
  .next (completeOk (setR v s))

/-- A command fails: it writes STATUS, nothing else (R71, R99). -/
def failWith (e : ErrorCode) (s : State) : Host.Outcome State Fault Refusal :=
  .next (raiseError e s)

/-- ADD (R72). -/
def execAdd (s : State) : Host.Outcome State Fault Refusal :=
  succeedWith (modp (operandA s + operandB s)) s

/-- SUB (R73). -/
def execSub (s : State) : Host.Outcome State Fault Refusal :=
  succeedWith (modp (operandA s - operandB s)) s

/-- MUL (R74). -/
def execMul (s : State) : Host.Outcome State Fault Refusal :=
  succeedWith (modp (operandA s * operandB s)) s

/-- INV (R77). -/
def execInv (s : State) : Host.Outcome State Fault Refusal :=
  if modp (operandA s) = 0 then failWith .notInvertible s
  else succeedWith (inv (operandA s)) s

/-- DIV (R78). The numerator is never checked. -/
def execDiv (s : State) : Host.Outcome State Fault Refusal :=
  if modp (operandB s) = 0 then failWith .notInvertible s
  else succeedWith (modp (operandA s * inv (operandB s))) s

end Sys2Proof.Machine
end

