-- ==== Sys2Proof/Machine/Polynomial.lean ====
section
/-! DEFINITION. EVAL and SPLIT (41_polynomial.md). -/

namespace Sys2Proof.Machine

/-- EVAL K (R83). It neither checks the secret nor wipes COEF. -/
def execEval (k : Nat) (s : State) : Host.Outcome State Fault Refusal :=
  if k = 0 then failWith .argZero s
  else succeedWith (horner (coefAt s) k (operandA s)) s

/-- The checks of SPLIT in their order (R84); the first that fails decides the error (R103). -/
def splitError (k n : Nat) (s : State) : Option ErrorCode :=
  if k = 0 ∨ n = 0 then some .argZero
  else if n < k then some .argKGtN
  else if (Config.prime : Int) ≤ coefAt s 0 then some .secretGePrime
  else none

/-- `SY[x-1] <- horner(K, x)` for x = 1..N (R85), every value computed from COEF as it is before the wipe. -/
def storeShares (k n : Nat) (s : State) : State :=
  { s with sy := writeShares (fun x => horner (coefAt s) k x) n s.sy }

/-- SPLIT K, N (R85). COEF is wiped on every exit path (R86). -/
def execSplit (k n : Nat) (s : State) : Host.Outcome State Fault Refusal :=
  match splitError k n s with
  | some e => .next (raiseError e (wipeCoef s))
  | none => .next (completeOk (wipeCoef (storeShares k n s)))

end Sys2Proof.Machine
end

