-- ==== Sys2Proof/Machine/Interpolation.lean ====
section
/-! DEFINITION. INTERP (42_interpolation.md). -/

namespace Sys2Proof.Machine

/-- The checks of INTERP in their order (R90, R92, R93); the first that fails decides the error (R103). -/
def interpError (m k : Nat) (s : State) : Option ErrorCode :=
  if m = 0 ∨ k = 0 then some .argZero
  else if m < k then some .tooFewPoints
  else if hasDuplicateX (pxAt s) m then some .duplicateX
  else none

/-- INTERP M, K (R93). -/
def execInterp (m k : Nat) (s : State) : Host.Outcome State Fault Refusal :=
  match interpError m k s with
  | some e => failWith e s
  | none => succeedWith (lagrange0 (pxAt s) (pyAt s) m) s

end Sys2Proof.Machine
end

