-- ==== Sys2Proof/Machine/Dispatch.lean ====
section
/-! DEFINITION. `perform(c)` of R101 for each command: one arm per constructor of Instr. -/

namespace Sys2Proof.Machine

def exec (i : Instr) (s : State) : Host.Outcome State Fault Refusal :=
  match i with
  | .nop => Sys2Proof.Machine.execNop s
  | .add => Sys2Proof.Machine.execAdd s
  | .sub => Sys2Proof.Machine.execSub s
  | .mul => Sys2Proof.Machine.execMul s
  | .inv => Sys2Proof.Machine.execInv s
  | .div => Sys2Proof.Machine.execDiv s
  | .eval k => Sys2Proof.Machine.execEval k s
  | .split k n => Sys2Proof.Machine.execSplit k n s
  | .interp m k => Sys2Proof.Machine.execInterp m k s
  | .wipe => Sys2Proof.Machine.execWipe s

end Sys2Proof.Machine
end

