-- ==== Sys2Proof/Machine/Agents.lean ====
section
/-! DEFINITION. What each agent's step does (R9): the Engine's completion (R101), the host's transaction (R38), the reset event
(R113), and which of them moves. -/

namespace Sys2Proof.Machine

/-- `complete()` of R101: decode CMDREG and perform the command. -/
def complete (s : State) : Host.Outcome State Fault Refusal :=
  match decode s.cmdReg with
  | .ok i => exec i s
  | .error _ => execIllegal s

/-- The Engine's turn: its step is enabled exactly while BUSY = 1 (R34, R101); at any other time nothing happens. -/
def engineTurn (s : State) : Host.Outcome State Fault Refusal :=
  if s.busy then complete s else .next s

/-- A response is given to the host (R38). -/
def respond (r : Response) (s : State) : State := { s with responses := r :: s.responses }

/-- The host goes on with the transactions `ops`. -/
def hostContinues (ops : List HostOp) (s : State) : State := { s with host := ops }

/-- The data of a response: an ERROR response has rdata 0 (R38, R44). -/
def rdataOf : Response → Word
  | .okay rdata => rdata
  | .error => 0

/-- A `poll` ends at a response whose bit 0 (BUSY) is 0 (R65). -/
def showsBusy (r : Response) : Bool := (rdataOf r).getLsbD 0

/-- One transaction (R38): its response and the state after it. A `poll` reads STATUS (R65). -/
def transact (op : HostOp) (s : State) : Response × State :=
  match op with
  | .read addr => busRead addr s
  | .write addr data => busWrite addr data s
  | .poll => busRead (offsetOf .status) s

/-- What the host does after a transaction: a `poll` that saw BUSY = 1 is repeated (R65). -/
def hostAfter (op : HostOp) (rest : List HostOp) (r : Response) : List HostOp :=
  match op with
  | .read _ => rest
  | .write _ _ => rest
  | .poll => if showsBusy r then .poll :: rest else rest

/-- The host's turn: its next transaction, or nothing when it has none (R9, R38). -/
def hostTurn (s : State) : State :=
  match s.host with
  | [] => s
  | op :: rest =>
    let done := transact op s
    respond done.1 (hostContinues (hostAfter op rest done.1) done.2)

/-- The turn that `t` names. -/
def takeTurn (t : Turn) (s : State) : Host.Outcome State Fault Refusal :=
  match t with
  | .host => .next (hostTurn s)
  | .engine => engineTurn s
  | .reset => .next (resetBlock s)

/-- Whose turn it is when the listed order of turns is used up: the Engine's while a command is pending, else the host's. So every
accepted command completes unless a reset comes first (R123; log entry 3). -/
def defaultTurn (s : State) : Turn := if s.busy then .engine else .host

/-- One step: the first listed turn, or the default one (R9, R48). -/
def advance (s : State) : Host.Outcome State Fault Refusal :=
  match s.turns with
  | [] => takeTurn (defaultTurn s) s
  | t :: rest => takeTurn t { s with turns := rest }

/-- `s` with the command word `w` accepted and the Engine's turn next, so that the next step completes `w` (log entry 6). -/
def issueNow (w : Word) (s : State) : State :=
  { accept w s with err := false, turns := .engine :: s.turns }

end Sys2Proof.Machine
end

