-- ==== Sys2Proof/Machine/Step.lean ====
section
/-! DEFINITION. One step of the machine, and the host's way of placing an instruction where the next step runs it. -/

namespace Sys2Proof.Machine

/-- One step: one host transaction, one Engine completion or one reset (R9). -/
def step (s : State) : Host.Outcome State Fault Refusal := advance s

/-- `s` with the command word of `nbits` bits `w` accepted and about to complete (R34; log entry 6). The block fetches nothing
(R16): a command comes to run because the host writes it to CMD, and this stands for that write. -/
def State.withFetchWord (s : State) (nbits w : Nat) : State :=
  issueNow (BitVec.ofNat 32 (w % 2 ^ nbits)) s

end Sys2Proof.Machine
end

