-- ==== Sys2Proof/Machine/HostScript.lean ====
section
/-! DEFINITION. The transactions host software is written in (R64, R65): writes and reads of locations, the pseudo-instructions,
and the scripts that split one byte and reconstruct one byte (R70, R87, R102, R117). -/

namespace Sys2Proof.Machine

/-- `wr <loc>, <value32>` (R64). -/
def wr (l : Loc) (v : Word) : HostOp := .write (offsetOf l) v

/-- `rd <loc>` (R64). -/
def rd (l : Loc) : HostOp := .read (offsetOf l)

/-- `cmd <mnemonic> [operands]` (R65). -/
def cmdScript (i : Instr) : List HostOp := [wr .cmd (encode i)]

/-- `run <mnemonic> [operands]` (R65): `cmd`, then `poll`. -/
def runScript (i : Instr) : List HostOp := cmdScript i ++ [.poll]

/-- `ack` (R65, R105): clears DONE, ERR and DROP. -/
def ackScript : List HostOp := [wr .status 0x0000000E]

/-- `ld <arr>[<i>], v0, v1, ..., vj` (R65). Every caller keeps the last index within the array. -/
def loadScript (bank : BankName) (i : Nat) : List Word → List HostOp
  | [] => []
  | v :: vs => wr (.entry bank (Fin.ofNat Config.arrayDepth i)) v :: loadScript bank (i + 1) vs

/-- Reads of the first `n` entries of an array, in order. -/
def readScript (bank : BankName) (n : Nat) : List HostOp :=
  (List.range n).map fun i => rd (.entry bank (Fin.ofNat Config.arrayDepth i))

/-- What the host must check before it draws a coefficient (R87(d), R122): 1 ≤ k ≤ n ≤ 255. -/
def hostAccepts (k n : Nat) : Bool := 1 ≤ k && k ≤ n && n ≤ Config.countMax

/-- One byte split (R87, R117): load the secret and the coefficients, run SPLIT, read the shares; nothing where the host's own
check fails (R87(d)). `coeffs` are the k - 1 values the host drew; RandomSource stands outside the block (00_scope.md section 3). -/
def splitByteScript (secret : Byte) (coeffs : List Half) (n : Nat) : Option (List HostOp) :=
  if hostAccepts (coeffs.length + 1) n then
    some (loadScript .coef 0 (secret.setWidth 32 :: coeffs.map zext32) ++ runScript (.split (coeffs.length + 1) n) ++ readScript .sy n)
  else none

/-- What the reconstruction collaborator checks before it touches the block: the number of points and the claimed threshold fit the
fields of a command word, as the assembler also demands (R55, R63). R70 leaves open what it does otherwise (log entry 21, DESIGN
CHOICE). -/
def hostCanInterpolate (m k : Nat) : Bool := m ≤ Config.countMax && k ≤ Config.countMax

/-- One byte reconstructed from points (x, y) with claimed threshold `k` (R70, R93, R117): load PX and PY, run INTERP, read R. With more
than 255 points, or a claimed threshold above 255, the host issues nothing (log entry 21, DESIGN CHOICE). -/
def reconstructByteScript (points : List (Half × Half)) (k : Nat) : Option (List HostOp) :=
  if hostCanInterpolate points.length k then
    some (loadScript .px 0 (points.map fun pt => zext32 pt.1) ++ loadScript .py 0 (points.map fun pt => zext32 pt.2)
      ++ runScript (.interp points.length k) ++ [rd .r])
  else none

/-- What the host sends to the block after a command of its operation failed (R102(c)): acknowledge, then wipe. -/
def afterErrorScript : List HostOp := ackScript ++ runScript .wipe

end Sys2Proof.Machine
end

