-- ==== Sys2Proof/Machine/Assembler.lean ====
section
/-! DEFINITION. The assembler (R63 to R65): from the text of a host program, one line at a time, to its transactions. -/

namespace Sys2Proof.Machine

/-- A token of a line. -/
inductive Token where
  | word (cs : List Char)
  | comma
  | openBracket
  | closeBracket
  | atSign
  deriving DecidableEq, Repr

/-- Why a line is rejected. -/
inductive AsmError where
  /-- A character that no form of R63 to R65 uses. -/
  | badCharacter
  /-- Neither a decimal nor a 0x number (R63). -/
  | badNumber
  /-- A count above 255 (R63). -/
  | countTooLarge
  /-- A value above 32 bits, or an offset outside the window, or an index above 255 (R36, R37, R38). -/
  | outOfRange
  /-- No mnemonic with these operands (R63). -/
  | unknownCommand
  /-- No location of this name (R64). -/
  | unknownLocation
  /-- The tokens form no line of R64 or R65. -/
  | badLine
  deriving DecidableEq, Repr

/-- A character of a name or a number. -/
def isWordChar (c : Char) : Bool := c.isAlphanum

/-- The word collected so far (its characters reversed), if there is one, before the tokens that follow. -/
def endWord (cur : List Char) (ts : List Token) : List Token :=
  match cur with
  | [] => ts
  | _ :: _ => .word cur.reverse :: ts

/-- The token of a punctuation character. -/
def punctuation (c : Char) : Option Token :=
  if c = ',' then some .comma
  else if c = '[' then some .openBracket
  else if c = ']' then some .closeBracket
  else if c = '@' then some .atSign
  else none

/-- The tokens of a line; `cur` is the word under way, reversed. A comment starts with `;` (R64). -/
def tokenize (line : List Char) (cur : List Char) : Except AsmError (List Token) :=
  match line with
  | [] => .ok (endWord cur [])
  | c :: cs =>
    if c = ';' then .ok (endWord cur [])
    else if isWordChar c then tokenize cs (c :: cur)
    else if c = ' ' ∨ c = '\t' then (tokenize cs []).map (endWord cur)
    else
      match punctuation c with
      | some t => (tokenize cs []).map fun ts => endWord cur (t :: ts)
      | none => .error .badCharacter

/-- The value of a digit character, decimal or hexadecimal in either case (log entry 9). -/
def digitOf (c : Char) : Nat :=
  if '0' ≤ c ∧ c ≤ '9' then c.toNat - 0x30
  else if 'a' ≤ c ∧ c ≤ 'f' then c.toNat - 0x61 + 10
  else if 'A' ≤ c ∧ c ≤ 'F' then c.toNat - 0x41 + 10
  else 16

/-- The number that digits of a base write, after the digits of value `acc`. -/
def digitsValue (base : Nat) (acc : Nat) : List Char → Except AsmError Nat
  | [] => .ok acc
  | c :: cs => if digitOf c < base then digitsValue base (base * acc + digitOf c) cs else .error .badNumber

/-- A decimal or `0x` hexadecimal number (R63). -/
def numberOf : List Char → Except AsmError Nat
  | [] => .error .badNumber
  | '0' :: 'x' :: c :: cs => digitsValue 16 0 (c :: cs)
  | c :: cs => digitsValue 10 0 (c :: cs)

/-- A number below a bound. -/
def numberBelow (bound : Nat) (e : AsmError) (cs : List Char) : Except AsmError Nat :=
  match numberOf cs with
  | .ok n => if n < bound then .ok n else .error e
  | .error x => .error x

/-- Numbers separated by commas, each below a bound. -/
def numberList (bound : Nat) (e : AsmError) : List Token → Except AsmError (List Nat)
  | [.word cs] => (numberBelow bound e cs).map fun n => [n]
  | .word cs :: .comma :: rest =>
    match numberBelow bound e cs, numberList bound e rest with
    | .ok n, .ok ns => .ok (n :: ns)
    | .error x, _ => .error x
    | .ok _, .error x => .error x
  | _ => .error .badLine

/-- The command of an upper-case mnemonic with its counts (R63). -/
def commandOf (name : List Char) (counts : List Nat) : Except AsmError Instr :=
  match counts with
  | [] =>
    if name = "NOP".toList then .ok .nop
    else if name = "ADD".toList then .ok .add
    else if name = "SUB".toList then .ok .sub
    else if name = "MUL".toList then .ok .mul
    else if name = "INV".toList then .ok .inv
    else if name = "DIV".toList then .ok .div
    else if name = "WIPE".toList then .ok .wipe
    else .error .unknownCommand
  | [k] => if name = "EVAL".toList then .ok (.eval k) else .error .unknownCommand
  | [c1, c2] =>
    if name = "SPLIT".toList then .ok (.split c1 c2)
    else if name = "INTERP".toList then .ok (.interp c1 c2)
    else .error .unknownCommand
  | _ => .error .unknownCommand

/-- The operands of a command: none, or counts separated by commas, each at most 255 (R63). -/
def countsOf : List Token → Except AsmError (List Nat)
  | [] => .ok []
  | t :: ts => numberList (Config.countMax + 1) .countTooLarge (t :: ts)

/-- A mnemonic, case-insensitive, with its operands (R63). -/
def assembleCommand : List Token → Except AsmError Instr
  | .word name :: operands =>
    match countsOf operands with
    | .ok counts => commandOf (name.map Char.toUpper) counts
    | .error e => .error e
  | _ => .error .unknownCommand

/-- The array of a name (R64). -/
def bankOf (name : List Char) : Except AsmError BankName :=
  if name = "COEF".toList then .ok .coef
  else if name = "PX".toList then .ok .px
  else if name = "PY".toList then .ok .py
  else if name = "SY".toList then .ok .sy
  else .error .unknownLocation

/-- The register of a name (R64). -/
def registerOf (name : List Char) : Except AsmError Loc :=
  if name = "CMD".toList then .ok .cmd
  else if name = "STATUS".toList then .ok .status
  else if name = "A".toList then .ok .a
  else if name = "B".toList then .ok .b
  else if name = "R".toList then .ok .r
  else if name = "PRIME".toList then .ok .prime
  else .error .unknownLocation

/-- An entry of an array, its index at most 255 (R37, R64). -/
def entryOf (name index : List Char) : Except AsmError (BankName × Nat) :=
  match bankOf name, numberBelow Config.arrayDepth .outOfRange index with
  | .ok bank, .ok i => .ok (bank, i)
  | .error e, _ => .error e
  | .ok _, .error e => .error e

/-- A location and the tokens after it (R64): `@<offset>`, an array entry, or a register. -/
def locationOf : List Token → Except AsmError (Offset × List Token)
  | .atSign :: .word n :: rest =>
    (numberBelow Config.windowBytes .outOfRange n).map fun v => (BitVec.ofNat 13 v, rest)
  | .word name :: .openBracket :: .word i :: .closeBracket :: rest =>
    (entryOf name i).map fun e => (offsetOf (.entry e.1 (Fin.ofNat Config.arrayDepth e.2)), rest)
  | .word name :: rest => (registerOf name).map fun l => (offsetOf l, rest)
  | _ => .error .badLine

/-- `wr <loc>, <value32>` after the word `wr` (R64). -/
def assembleWrite (ts : List Token) : Except AsmError (List HostOp) :=
  match locationOf ts with
  | .ok (addr, [.comma, .word v]) =>
    (numberBelow (2 ^ 32) .outOfRange v).map fun n => [.write addr (BitVec.ofNat 32 n)]
  | .ok _ => .error .badLine
  | .error e => .error e

/-- `rd <loc>` after the word `rd` (R64). -/
def assembleRead (ts : List Token) : Except AsmError (List HostOp) :=
  match locationOf ts with
  | .ok (addr, []) => .ok [.read addr]
  | .ok _ => .error .badLine
  | .error e => .error e

/-- `ld <arr>[<i>], v0, ..., vj` after the word `ld` (R65). No entry may lie past the end of the array. -/
def assembleLoad : List Token → Except AsmError (List HostOp)
  | .word name :: .openBracket :: .word i :: .closeBracket :: .comma :: rest =>
    match entryOf name i, numberList (2 ^ 32) .outOfRange rest with
    | .ok (bank, first), .ok vs =>
      if first + vs.length ≤ Config.arrayDepth then .ok (loadScript bank first (vs.map (BitVec.ofNat 32)))
      else .error .outOfRange
    | .error e, _ => .error e
    | .ok _, .error e => .error e
  | _ => .error .badLine

/-- One line, as tokens (R64, R65). -/
def assembleTokens : List Token → Except AsmError (List HostOp)
  | [] => .ok []
  | .word head :: rest =>
    if head = "wr".toList then assembleWrite rest
    else if head = "rd".toList then assembleRead rest
    else if head = "cmd".toList then (assembleCommand rest).map cmdScript
    else if head = "run".toList then (assembleCommand rest).map runScript
    else if head = "ld".toList then assembleLoad rest
    else if head = "poll".toList ∧ rest = [] then .ok [.poll]
    else if head = "ack".toList ∧ rest = [] then .ok ackScript
    else .error .badLine
  | _ => .error .badLine

/-- One line of a host program (R64, R65). -/
def assembleLine (line : List Char) : Except AsmError (List HostOp) :=
  match tokenize line [] with
  | .ok ts => assembleTokens ts
  | .error e => .error e

/-- A host program: its transactions, line after line (R64). -/
def assembleProgram : List (List Char) → Except AsmError (List HostOp)
  | [] => .ok []
  | line :: lines =>
    match assembleLine line, assembleProgram lines with
    | .ok ops, .ok more => .ok (ops ++ more)
    | .error e, _ => .error e
    | .ok _, .error e => .error e

end Sys2Proof.Machine
end

