-- ==== Sys2Proof/Machine/Platform.lean ====
section
/-! DEFINITION. Between the host's program and the block: the platform parameters the spec leaves OPEN (BASE, HOST_ORDERING and
ACCESS_CONTROL), each an argument, and the byte lanes of the bus word (R45). -/

namespace Sys2Proof.Machine

/-- BASE (R36, D42), OPEN: the window offset of a host physical address, where the window begins at `base`. -/
def windowOffset (base phys : Nat) : Option Offset :=
  if base ≤ phys ∧ phys < base + Config.windowBytes then some (BitVec.ofNat 13 (phys - base)) else none

/-- The host physical address of a window offset (R36). -/
def hostAddress (base : Nat) (addr : Offset) : Nat := base + addr.toNat

/-- Byte lane `lane` of a bus word: lane 0 carries bits [7:0] and lane 3 carries bits [31:24] (R45). -/
def byteLane (w : Word) (lane : Fin 4) : Byte := w.extractLsb' (8 * lane.val) 8

/-- The bus word whose four lanes are given, lane 0 first (R45). -/
def wordOfLanes (b0 b1 b2 b3 : Byte) : Word := b3 ++ b2 ++ b1 ++ b0

/-- The byte of the window's content at a byte offset, in the host's byte addresses (R45): the lane addr[1:0] of the stored word. A
reserved offset holds 0 (R42). -/
def windowByte (s : State) (addr : Offset) : Byte :=
  match alignedTarget (addr.toNat / 4 * 4) with
  | .loc l => byteLane (locWord s l) (Fin.ofNat 4 addr.toNat)
  | .reserved => 0
  | .misaligned => 0

/-- HOST_ORDERING (R49, D43), OPEN: which transaction orders can reach the block from a host program. R38 is about the order in
which they arrive, and that is the order of `State.host`. -/
def MayArrive (ordering : Config.HostOrdering) (program arriving : List HostOp) : Prop :=
  match ordering with
  | .keepsOrder => arriving = program
  | .mayReorder => arriving.Perm program

/-- ACCESS_CONTROL (R110, D44), OPEN: the transactions the platform lets reach the window. The block itself checks nothing. -/
def admitted (may : HostOp → Bool) (program : List HostOp) : List HostOp := program.filter may

end Sys2Proof.Machine
end

