-- ==== Sys2Proof/Machine/ShareFile.lean ====
section
/-! DEFINITION. The share wire format (30_encoding.md section 4, R66 to R70, D41): what host software writes to and reads from a
share file. The block itself never sees a file. -/

namespace Sys2Proof.Machine

/-- What one share file holds (R66, R67): its threshold k, its x-coordinate, and one y-value per secret byte. -/
structure Share where
  k : Byte
  x : Byte
  ys : List Half
  deriving DecidableEq, Repr

/-- Why host software rejects share files, each an IOError of the source (R69, R70, D41). -/
inductive ShareError where
  /-- The file ends inside its 4-byte header (log entry 8). -/
  | headerTooShort
  /-- A byte of the header is no hex digit (R69). -/
  | headerNotHex
  /-- The header's k is 00 (D41). -/
  | thresholdZero
  /-- The header's x is 00 (D41). -/
  | xZero
  /-- The payload has an odd number of bytes (D41). -/
  | oddPayload
  /-- The files are not of equal length (R70). -/
  | unequalLengths
  deriving DecidableEq, Repr

/-- The code of the letter a, in the writer's case (R66, R69). -/
def hexLetterA : Config.HexCase → Nat
  | .lower => 0x61
  | .upper => 0x41

/-- The ASCII byte of a hex digit below 16 (R66). -/
def hexDigit (hexCase : Config.HexCase) (n : Nat) : Byte :=
  BitVec.ofNat 8 (if n < 10 then 0x30 + n else hexLetterA hexCase + (n - 10))

/-- Two hex digits, the most significant first (R66). -/
def hexByte (hexCase : Config.HexCase) (v : Byte) : List Byte :=
  [hexDigit hexCase (v.toNat / 16), hexDigit hexCase (v.toNat % 16)]

/-- The value of a hex digit; a reader accepts both cases (R69). -/
def hexValue (c : Byte) : Option Nat :=
  let n := c.toNat
  if 0x30 ≤ n ∧ n ≤ 0x39 then some (n - 0x30)
  else if 0x61 ≤ n ∧ n ≤ 0x66 then some (n - 0x61 + 10)
  else if 0x41 ≤ n ∧ n ≤ 0x46 then some (n - 0x41 + 10)
  else none

/-- The value of two hex digits. -/
def hexPair (hi lo : Byte) : Option Byte :=
  match hexValue hi, hexValue lo with
  | some h, some l => some (BitVec.ofNat 8 (16 * h + l))
  | _, _ => none

/-- The two bytes of a y-value, the low byte first (R67, R68). -/
def yBytes (y : Half) : List Byte := [y.extractLsb' 0 8, y.extractLsb' 8 8]

/-- The y-value of two payload bytes (R67, R68). -/
def yOfBytes (lo hi : Byte) : Half := hi ++ lo

/-- The payload of a share file: each y reduced mod p (R67). -/
def payloadBytes : List Half → List Byte
  | [] => []
  | y :: ys => yBytes (toHalf (modp (value y))) ++ payloadBytes ys

/-- The bytes of a share file (R66, R67). A correct writer has k and x from 1 to 255 (R66, D41); what a writer does with a k or an x of
0 the spec leaves open, and this one checks nothing and writes the header digits 00, which a reader then rejects (log entry 22, DESIGN
CHOICE). -/
def writeShare (hexCase : Config.HexCase) (s : Share) : List Byte :=
  hexByte hexCase s.k ++ hexByte hexCase s.x ++ payloadBytes s.ys

/-- The y-values of a payload; a y ≥ p is passed on unchanged (D41). -/
def readPayload : List Byte → Except ShareError (List Half)
  | [] => .ok []
  | [_] => .error .oddPayload
  | lo :: hi :: rest =>
    match readPayload rest with
    | .ok ys => .ok (yOfBytes lo hi :: ys)
    | .error e => .error e

/-- The header of a share file, checked (R66, R69, D41). -/
def readHeader (c0 c1 c2 c3 : Byte) : Except ShareError (Byte × Byte) :=
  match hexPair c0 c1, hexPair c2 c3 with
  | some k, some x => if k = 0 then .error .thresholdZero else if x = 0 then .error .xZero else .ok (k, x)
  | _, _ => .error .headerNotHex

/-- The share a file holds, or why it is rejected (R66 to R69, D41). -/
def readShare : List Byte → Except ShareError Share
  | c0 :: c1 :: c2 :: c3 :: payload =>
    match readHeader c0 c1 c2 c3, readPayload payload with
    | .ok (k, x), .ok ys => .ok ⟨k, x, ys⟩
    | .error e, _ => .error e
    | .ok _, .error e => .error e
  | _ => .error .headerTooShort

/-- All files have the length of the first (R70). -/
def equalLengths : List (List Byte) → Bool
  | [] => true
  | f :: fs => fs.all fun g => g.length = f.length

/-- The shares of the files, each read on its own. -/
def readEach : List (List Byte) → Except ShareError (List Share)
  | [] => .ok []
  | f :: fs =>
    match readShare f, readEach fs with
    | .ok s, .ok ss => .ok (s :: ss)
    | .error e, _ => .error e
    | .ok _, .error e => .error e

/-- The reconstruction collaborator's input: all files of equal length, which is checked first (R70), and each well formed. -/
def readShares (files : List (List Byte)) : Except ShareError (List Share) :=
  if equalLengths files then readEach files else .error .unequalLengths

/-- The points at one payload offset: PX[j] <- x of file j, PY[j] <- y of file j (R70). -/
def pointsAt (shares : List Share) (i : Nat) : List (Half × Half) :=
  shares.map fun s => (s.x.setWidth 16, s.ys.getD i 0)

/-- The scripts that reconstruct the secret, one for each payload offset (R70). The host passes the claimed threshold `k`; whether
the k fields agree is its own check (D11, D37). Nothing is issued for more than 255 shares or a `k` above 255 (log entry 21, DESIGN
CHOICE). -/
def reconstructScripts (shares : List Share) (k : Nat) : Option (List (List HostOp)) :=
  match shares with
  | [] => some []
  | s :: _ => (List.range s.ys.length).mapM fun i => reconstructByteScript (pointsAt shares i) k

/-- Do the k fields of all shares agree and equal the number of shares: the stricter check that R70 leaves to the host. -/
def thresholdsAgree (shares : List Share) : Bool :=
  shares.all fun s => s.k.toNat = shares.length

end Sys2Proof.Machine
end

