-- ==== Sys2Proof/Safety.lean ====
section
/-! DEFINITION. The terms claims are stated in: how a command ended, what it left alone, who moved, and the invariants of the block
(R5, R23, R98, R101). -/

namespace Sys2Proof.Machine

/-- STATUS as a successful completion leaves it (R101): BUSY 0, DONE 1, the rest as before. -/
def Succeeded (s t : State) : Prop :=
  t.busy = false ∧ t.done = true ∧ t.err = s.err ∧ t.errCode = s.errCode ∧ t.drop = s.drop

/-- STATUS as a completion with error `e` leaves it (R101): BUSY 0, ERR 1, ERRCODE the code of `e`, the rest as before. -/
def Failed (e : ErrorCode) (s t : State) : Prop :=
  t.busy = false ∧ t.err = true ∧ t.errCode = errorNumber e ∧ t.done = s.done ∧ t.drop = s.drop

/-- What only the host, WIPE and reset write: CMDREG, A, B, PX and PY are unchanged. -/
def SameInputs (s t : State) : Prop :=
  t.cmdReg = s.cmdReg ∧ t.a = s.a ∧ t.b = s.b ∧ t.px = s.px ∧ t.py = s.py

/-- The model's record of what stands outside the block is unchanged: a command issues no transaction and draws no free value. -/
def SameOutside (s t : State) : Prop :=
  t.host = s.host ∧ t.turns = s.turns ∧ t.responses = s.responses ∧ t.draws = s.draws

/-- Everything but R and STATUS is unchanged: the frame of a command that writes R only (R71, R98). -/
def KeepsAllButR (s t : State) : Prop :=
  SameInputs s t ∧ t.coef = s.coef ∧ t.sy = s.sy ∧ SameOutside s t

/-- Everything but STATUS is unchanged (R98, R99). -/
def KeepsAllData (s t : State) : Prop :=
  KeepsAllButR s t ∧ t.r = s.r

/-- The agent that makes the next step from `s` (R9). -/
def turnOf (s : State) : Turn :=
  match s.turns with
  | [] => defaultTurn s
  | t :: _ => t

/-- The next step from `s` is the host's write of `data` at `addr`. -/
def HostWrites (s : State) (addr : Offset) (data : Word) : Prop :=
  turnOf s = .host ∧ s.host.head? = some (.write addr data)

/-- The next step from `s` is the Engine's completion of the command `i`. -/
def Completes (s : State) (i : Instr) : Prop :=
  turnOf s = .engine ∧ s.busy = true ∧ decode s.cmdReg = .ok i

/-- The commands whose result, if they succeed, is R and nothing else (R20, R98). -/
def writesR : Instr → Bool
  | .add => true
  | .sub => true
  | .mul => true
  | .inv => true
  | .div => true
  | .eval _ => true
  | .interp _ _ => true
  | .nop => false
  | .split _ _ => false
  | .wipe => false

/-- Every entry of an array is 0. -/
def AllZero (bank : Bank) : Prop := ∀ i < Config.arrayDepth, readEntry bank i = 0

/-- The block is as reset leaves it (R114). -/
def AtReset (t : State) : Prop :=
  t.cmdReg = 0 ∧ t.busy = false ∧ t.done = false ∧ t.err = false ∧ t.drop = false ∧ t.errCode = 0 ∧ t.a = 0 ∧ t.b = 0 ∧
    t.r = 0 ∧ AllZero t.coef ∧ AllZero t.px ∧ AllZero t.py ∧ AllZero t.sy

/-- What a command may write, on success and on error (R98): the row of the frame table for a command that began with ERR = 0.
CMDREG, DROP and what stands outside the block are in no row. -/
def FrameRow (i : Instr) (s t : State) : Prop :=
  match i with
  | .nop => KeepsAllData s t
  | .add => KeepsAllButR s t
  | .sub => KeepsAllButR s t
  | .mul => KeepsAllButR s t
  | .inv => KeepsAllButR s t ∧ (t.err = true → t.r = s.r)
  | .div => KeepsAllButR s t ∧ (t.err = true → t.r = s.r)
  | .eval _ => KeepsAllButR s t ∧ (t.err = true → t.r = s.r)
  | .interp _ _ => KeepsAllButR s t ∧ (t.err = true → t.r = s.r)
  | .split _ n =>
    SameInputs s t ∧ t.r = s.r ∧ AllZero t.coef ∧ (∀ j ≥ n, readEntry t.sy j = readEntry s.sy j) ∧
      (t.err = true → t.sy = s.sy) ∧ SameOutside s t
  | .wipe =>
    t.cmdReg = s.cmdReg ∧ t.a = 0 ∧ t.b = 0 ∧ t.r = 0 ∧ AllZero t.coef ∧ AllZero t.px ∧ AllZero t.py ∧ AllZero t.sy ∧
      SameOutside s t

/-- A failed SPLIT (R85, R86, R99): STATUS reports `e`, COEF is wiped, and nothing else is written. -/
def SplitFailed (e : ErrorCode) (s t : State) : Prop :=
  Failed e s t ∧ AllZero t.coef ∧ SameInputs s t ∧ t.r = s.r ∧ t.sy = s.sy ∧ SameOutside s t

/-- The invariants of R23, and S8: at most one of BUSY, DONE and ERR; ERRCODE ≠ 0 exactly when ERR = 1; ERRCODE at most 7. That
ERRCLASS = class(ERRCODE) needs no clause, since ERRCLASS is computed (R29). -/
abbrev StatusInv (s : State) : Prop :=
  (s.busy && s.done) = false ∧ (s.busy && s.err) = false ∧ (s.done && s.err) = false ∧
    (s.errCode ≠ 0 ↔ s.err = true) ∧ s.errCode.toNat ≤ 7

/-- A stored value is canonical: below p (R5). -/
abbrev Canonical (v : Half) : Prop := v.toNat < Config.prime

/-- R and every entry of SY are canonical (R20, R33, R88(a)). -/
abbrev CanonicalResults (s : State) : Prop :=
  Canonical s.r ∧ ∀ i < Config.arrayDepth, Canonical (readEntry s.sy i)

/-- `c 0 + c 1 * x + ... + c (k-1) * x^(k-1)` (R81). -/
def polynomial (c : Nat → Int) (k : Nat) (x : Int) : Int :=
  ∑ i ∈ Finset.range k, c i * x ^ i

/-- The polynomial with the m coefficients `c` passes through the points (px j, py j), j < m, in Zp (R91). -/
def PassesThrough (c px py : Nat → Int) (m : Nat) : Prop :=
  ∀ j < m, polynomial c m (px j) % (Config.prime : Int) = py j % (Config.prime : Int)

/-- The x residues of the first m points are pairwise distinct (R91, R92). -/
def DistinctX (px : Nat → Int) (m : Nat) : Prop :=
  ∀ i j, i < j → j < m → px i % (Config.prime : Int) ≠ px j % (Config.prime : Int)

end Sys2Proof.Machine
end

