-- ==== Sys2Proof/Certificates/Slice0/Obligations.lean ====
section
/-! DEFINITION. The statements for the provers. Each docstring names the rule of spec/ it formalises. -/

open Sys2Proof Sys2Proof.Machine

/-! Encoding -/

/-- Decoding the command word of a command gives the command back, for every command a word can carry (R53, R57, R61). -/
def Obligations.CommandWordRoundTrip : Prop :=
  ∀ i : Instr, i.WellFormed → decode (encode i) = .ok i

/-- R58: an unused parameter field that is not 0 makes the word illegal, and every legal word has one meaning and one spelling. -/
def Obligations.LegalWordHasOneSpelling : Prop :=
  (∀ w : Word, ((opOf w).toNat ≤ 5 ∨ (opOf w).toNat = 9) → (p1Of w ≠ 0 ∨ p2Of w ≠ 0) → ∃ e, decode w = .error e) ∧
  (∀ w : Word, (opOf w).toNat = 6 → p2Of w ≠ 0 → ∃ e, decode w = .error e) ∧
  (∀ (w : Word) (i : Instr), decode w = .ok i → i.WellFormed ∧ encode i = w)

/-- R57: the table's masks and matches; a word decodes to a command of exactly the row it selects; no two rows overlap; a word that
selects no row is illegal. -/
def Obligations.WordsSelectOpcodeTableRows : Prop :=
  opcodeTable = [⟨0xFFFFFFFF, 0x00000000⟩, ⟨0xFFFFFFFF, 0x00000001⟩, ⟨0xFFFFFFFF, 0x00000002⟩, ⟨0xFFFFFFFF, 0x00000003⟩,
    ⟨0xFFFFFFFF, 0x00000004⟩, ⟨0xFFFFFFFF, 0x00000005⟩, ⟨0xFFFF00FF, 0x00000006⟩, ⟨0xFF0000FF, 0x00000007⟩,
    ⟨0xFF0000FF, 0x00000008⟩, ⟨0xFFFFFFFF, 0x00000009⟩] ∧
  (∀ (w : Word) (i : Instr), decode w = .ok i → w &&& (tableRow i).mask = (tableRow i).value) ∧
  (∀ (w : Word) (row : TableRow), row ∈ opcodeTable → w &&& row.mask = row.value →
    ∃ i, decode w = .ok i ∧ tableRow i = row) ∧
  (∀ (w : Word) (x y : TableRow), x ∈ opcodeTable → y ∈ opcodeTable → w &&& x.mask = x.value → w &&& y.mask = y.value →
    x = y) ∧
  (∀ w : Word, (∀ row ∈ opcodeTable, w &&& row.mask ≠ row.value) → ∃ e, decode w = .error e)

/-- R54, R56: OP selects the command, each of 0x0 to 0x9 is assigned, and OP values 0xA to 0xF are illegal; so is any word with a reserved bit set, whatever its OP. -/
def Obligations.ReservedBitsAndOpcodesAreIllegal : Prop :=
  (∀ (w : Word) (i : Instr), decode w = .ok i → opcode i = w.extractLsb' 0 4 ∧ (w.extractLsb' 0 4).toNat ≤ 9) ∧
  (∀ op : BitVec 4, op.toNat ≤ 9 → ∃ (w : Word) (i : Instr), decode w = .ok i ∧ w.extractLsb' 0 4 = op) ∧
  (∀ w : Word, 10 ≤ (w.extractLsb' 0 4).toNat → ∃ e, decode w = .error e) ∧
  (∀ w : Word, w.extractLsb' 4 4 ≠ 0 ∨ w.extractLsb' 24 8 ≠ 0 → ∃ e, decode w = .error e)

/-- One word of each of the ten commands, written out from the bit patterns of R57, decodes to the command. -/
def Obligations.SpecWordsDecode : Prop :=
  decode 0b00000000000000000000000000000000#32 = .ok .nop ∧
  decode 0b00000000000000000000000000000001#32 = .ok .add ∧
  decode 0b00000000000000000000000000000010#32 = .ok .sub ∧
  decode 0b00000000000000000000000000000011#32 = .ok .mul ∧
  decode 0b00000000000000000000000000000100#32 = .ok .inv ∧
  decode 0b00000000000000000000000000000101#32 = .ok .div ∧
  decode 0b00000000000000000000001100000110#32 = .ok (.eval 3) ∧
  decode 0b00000000000001010000001100000111#32 = .ok (.split 3 5) ∧
  decode 0b00000000000000110000010100001000#32 = .ok (.interp 5 3) ∧
  decode 0b00000000000000000000000000001001#32 = .ok .wipe

/-- The assembler cannot produce an illegal word (R63): what it assembles is a command that its word decodes to; a count above 255 is
rejected in every position of a one-count and of a two-count line; and each mnemonic, in any letter case, with counts of at most 255
assembles to its command with those counts. -/
def Obligations.AssemblerProducesOnlyLegalWords : Prop :=
  (∀ (ts : List Token) (i : Instr), assembleCommand ts = .ok i → decode (encode i) = .ok i) ∧
  (∀ (name cs : List Char) (n : Nat), numberOf cs = .ok n → 255 < n →
    assembleCommand [.word name, .word cs] = .error .countTooLarge) ∧
  (∀ (name cs ds : List Char) (n m : Nat), numberOf cs = .ok n → numberOf ds = .ok m → 255 < n ∨ 255 < m →
    assembleCommand [.word name, .word cs, .comma, .word ds] = .error .countTooLarge) ∧
  (∀ (name : List Char) (spelling : String) (i : Instr), name.map Char.toUpper = spelling.toList →
    (spelling, i) ∈ [("NOP", Instr.nop), ("ADD", .add), ("SUB", .sub), ("MUL", .mul), ("INV", .inv), ("DIV", .div), ("WIPE", .wipe)] →
    assembleCommand [.word name] = .ok i) ∧
  (∀ (name cs : List Char) (k : Nat), name.map Char.toUpper = "EVAL".toList → numberOf cs = .ok k → k ≤ 255 →
    assembleCommand [.word name, .word cs] = .ok (.eval k)) ∧
  (∀ (name cs ds : List Char) (n m : Nat), numberOf cs = .ok n → numberOf ds = .ok m → n ≤ 255 → m ≤ 255 →
    (name.map Char.toUpper = "SPLIT".toList →
      assembleCommand [.word name, .word cs, .comma, .word ds] = .ok (.split n m)) ∧
    (name.map Char.toUpper = "INTERP".toList →
      assembleCommand [.word name, .word cs, .comma, .word ds] = .ok (.interp n m)))

/-! Steps and the life of a command -/

/-- At the Engine's turn with a command pending, the step is the command's own meaning, in the state whose order of turns has lost
its entry for that turn; with no command pending the turn passes (R34, R101). At the host's turn the step is its next transaction,
performed by the bus in that state: the transaction is done, its response is given, and a poll stays while the response shows BUSY
(R38, R65); with no transaction the turn passes. The order of turns, the host's list and the list of responses are the model's own
(log entries 2 and 3, DESIGN CHOICE). -/
def Obligations.StepCompletesDecodedCommand : Prop :=
  (∀ (s : State) (rest : List Turn) (i : Instr), s.busy = true → s.turns = .engine :: rest → decode s.cmdReg = .ok i →
    step s = exec i { s with turns := rest }) ∧
  (∀ (s : State) (i : Instr), s.busy = true → s.turns = [] → decode s.cmdReg = .ok i → step s = exec i s) ∧
  (∀ (s : State) (rest : List Turn), s.busy = false → s.turns = .engine :: rest → step s = .next { s with turns := rest }) ∧
  (∀ (s : State) (addr : Offset) (ops : List HostOp), turnOf s = .host → s.host = .read addr :: ops →
    ∀ (x : Response) (u : State), busRead addr { s with turns := s.turns.tail } = (x, u) →
      step s = .next { u with host := ops, responses := x :: s.responses }) ∧
  (∀ (s : State) (addr : Offset) (data : Word) (ops : List HostOp), turnOf s = .host → s.host = .write addr data :: ops →
    ∀ (x : Response) (u : State), busWrite addr data { s with turns := s.turns.tail } = (x, u) →
      step s = .next { u with host := ops, responses := x :: s.responses }) ∧
  (∀ (s : State) (ops : List HostOp), turnOf s = .host → s.host = .poll :: ops →
    step s = .next { s with
      turns := s.turns.tail, host := if s.busy then .poll :: ops else ops,
      responses := .okay (statusWord s) :: s.responses }) ∧
  (∀ s : State, turnOf s = .host → s.host = [] → step s = .next { s with turns := s.turns.tail })

/-- A command has exactly two steps (R34): the host's write of its word to CMD in an idle block is accepted and changes nothing
else, and the Engine's step then performs it on the data present at the accept. The lists of transactions, turns and responses are the
model's own (log entries 2 and 3, DESIGN CHOICE). -/
def Obligations.CommandLifeCycle : Prop :=
  ∀ (s : State) (i : Instr) (ops : List HostOp) (ts : List Turn), i.WellFormed → s.busy = false → s.err = false →
    s.host = .write 0x0000 (encode i) :: ops → s.turns = .host :: .engine :: ts →
    step s = .next { s with
      cmdReg := encode i, busy := true, done := false, errCode := 0, host := ops, turns := .engine :: ts,
      responses := .okay 0 :: s.responses } ∧
    core.run 2 s = exec i { s with
      cmdReg := encode i, busy := true, done := false, errCode := 0, host := ops, turns := ts,
      responses := .okay 0 :: s.responses }

/-- No step stops: every state has a next state, whatever word stands in CMDREG and whatever the host sends. The model's own deduction
(log entry 15, DEDUCED), with the idle turns of log entries 2 and 3; no rule says it in one sentence. -/
def Obligations.StepAnswersEveryState : Prop :=
  ∀ s : State, ∃ t : State, step s = .next t

/-- R97: a word that decodes to ILLEGAL completes with ILLEGAL_COMMAND, class ArgumentError; no data is written, COEF is not wiped
and CMDREG keeps the word. -/
def Obligations.IllegalWordReportsIllegalCommand : Prop :=
  (∀ (s : State) (e : DecodeError), decode s.cmdReg = .error e →
    ∃ t, complete s = .next t ∧ Failed .illegalCommand s t ∧ t.errCode = 7 ∧ errorClass t.errCode = 1 ∧ KeepsAllData s t) ∧
  (∀ w : Word, (∀ row ∈ opcodeTable, w &&& row.mask ≠ row.value) → ∃ e, decode w = .error e) ∧
  ∃ t, complete { State.reset with cmdReg := 0x0000000A, busy := true } = .next t ∧ statusWord t = 0x00001704

/-- From the accept of a command to its completion there are finitely many steps, at most one more than the turns listed, unless a
reset is listed; the data the command then sees is the data present at the accept (R34, R123). That the Engine moves when the listed
turns are used up is the model's form of weak fairness (log entry 3, DESIGN CHOICE). -/
def Obligations.AcceptedCommandCompletes : Prop :=
  ∀ s : State, s.busy = true → Turn.reset ∉ s.turns →
    ∃ (n : Nat) (u t : State), n ≤ s.turns.length ∧ core.run n s = .next u ∧ turnOf u = .engine ∧ u.busy = true ∧
      SameInputs s u ∧ u.coef = s.coef ∧ u.sy = s.sy ∧ u.r = s.r ∧
      core.run (n + 1) s = .next t ∧ t.busy = false

/-- While a command stays pending no step changes A, B, R, CMDREG or an array (R27, R34). -/
def Obligations.PendingCommandFreezesData : Prop :=
  ∀ s t : State, s.busy = true → step s = .next t → t.busy = true →
    SameInputs s t ∧ t.coef = s.coef ∧ t.sy = s.sy ∧ t.r = s.r

/-! Reset -/

/-- R114: the reset value of every piece of state, STATUS as a word, PRIME, and no command pending. -/
def Obligations.ResetValues : Prop :=
  State.reset.cmdReg = 0 ∧ State.reset.busy = false ∧ State.reset.done = false ∧ State.reset.err = false ∧
  State.reset.drop = false ∧ State.reset.errCode = 0 ∧ errorClass State.reset.errCode = 0 ∧
  statusWord State.reset = 0x00000000 ∧ State.reset.a = 0 ∧ State.reset.b = 0 ∧ State.reset.r = 0 ∧
  locWord State.reset .prime = 0x0000FFF1 ∧ AllZero State.reset.coef ∧ AllZero State.reset.px ∧ AllZero State.reset.py ∧
  AllZero State.reset.sy

/-- R115: a reset aborts a pending command without a trace and zeroes everything; a pending command ends in no other way than by a
completion or a reset. -/
def Obligations.ResetAbortsPendingCommand : Prop :=
  (∀ s : State, turnOf s = .reset → ∃ t, step s = .next t ∧ AtReset t) ∧
  (∀ s t : State, s.busy = true → step s = .next t → t.busy = false → turnOf s = .engine ∨ turnOf s = .reset)

/-- The state after reset meets the invariants of STATUS (R23) and holds canonical results (R20, R33). -/
def Obligations.ResetMeetsInvariants : Prop :=
  StatusInv State.reset ∧ CanonicalResults State.reset

/-! STATUS -/

/-- Every step keeps the invariants of R23: at most one of BUSY, DONE and ERR is 1, ERRCODE ≠ 0 exactly when ERR = 1, and ERRCODE is
never 8 to 15. -/
def Obligations.StatusInvariantsKept : Prop :=
  ∀ s t : State, StatusInv s → step s = .next t → StatusInv t

/-- The layout of STATUS (R23): which bits of the word a read returns show which field, and the reserved bits read 0. The word is
the same whether or not a command is pending. -/
def Obligations.StatusWordLayout : Prop :=
  ∀ s : State,
    busRead 0x0004 s = (.okay (statusWord s), s) ∧
    (statusWord s).getLsbD 0 = s.busy ∧ (statusWord s).getLsbD 1 = s.done ∧ (statusWord s).getLsbD 2 = s.err ∧
    (statusWord s).getLsbD 3 = s.drop ∧ (statusWord s).extractLsb' 4 4 = 0 ∧ (statusWord s).extractLsb' 8 4 = s.errCode ∧
    (statusWord s).extractLsb' 12 2 = errorClass s.errCode ∧ (statusWord s).extractLsb' 14 18 = 0

/-- R29: ERRCLASS is the class of ERRCODE, with the classes the rule lists, and no step gives ERRCODE a value above 7. -/
def Obligations.ErrorClassFollowsErrorCode : Prop :=
  (∀ s : State, (statusWord s).extractLsb' 12 2 = errorClass s.errCode) ∧
  errorClass 0 = 0 ∧ (∀ c : BitVec 4, c = 1 ∨ c = 2 ∨ c = 7 → errorClass c = 1) ∧
  (∀ c : BitVec 4, c = 3 ∨ c = 4 ∨ c = 5 ∨ c = 6 → errorClass c = 2) ∧
  State.reset.errCode.toNat ≤ 7 ∧
  (∀ s t : State, s.errCode.toNat ≤ 7 → step s = .next t → t.errCode.toNat ≤ 7)

/-- R24: BUSY becomes 1 by the accept of a command and only so; it becomes 0 by the command's completion or by reset and only so; a
STATUS write does not change it. -/
def Obligations.BusyFollowsTheCommand : Prop :=
  ∀ s t : State, step s = .next t →
    (s.busy = false → t.busy = true → ∃ w, HostWrites s 0x0000 w ∧ s.err = false ∧ t.cmdReg = w) ∧
    (s.busy = true → t.busy = false → turnOf s = .engine ∨ turnOf s = .reset) ∧
    (∀ w, HostWrites s 0x0000 w → s.busy = false → s.err = false → t.busy = true) ∧
    (turnOf s = .engine → t.busy = false) ∧ (turnOf s = .reset → t.busy = false) ∧
    (∀ d, HostWrites s 0x0004 d → t.busy = s.busy)

/-- R25: DONE becomes 1 by a successful completion and only so; it becomes 0 by an accept, by a STATUS write with bit 1 set, or by
reset, and only so; writing 0 to bit 1 has no effect. -/
def Obligations.DoneFollowsTheCommand : Prop :=
  ∀ s t : State, step s = .next t →
    (s.done = false → t.done = true → turnOf s = .engine ∧ s.busy = true ∧ t.err = s.err) ∧
    (turnOf s = .engine → s.busy = true → s.err = false → t.err = false → t.done = true) ∧
    (s.done = true → t.done = false →
      turnOf s = .reset ∨ (∃ w, HostWrites s 0x0000 w ∧ s.busy = false ∧ s.err = false) ∨
        ∃ d, HostWrites s 0x0004 d ∧ d.getLsbD 1 = true) ∧
    (∀ w, HostWrites s 0x0000 w → s.busy = false → s.err = false → t.done = false) ∧
    (∀ d, HostWrites s 0x0004 d → d.getLsbD 1 = true → t.done = false) ∧
    (∀ d, HostWrites s 0x0004 d → d.getLsbD 1 = false → t.done = s.done) ∧
    (turnOf s = .reset → t.done = false)

/-- R26: ERR becomes 1 by a completion with an error and only so; it becomes 0 by a STATUS write with bit 2 set, which clears ERRCODE
and ERRCLASS too, or by reset, and only so; while ERR = 1 a CMD write is discarded. -/
def Obligations.ErrorMustBeAcknowledged : Prop :=
  ∀ s t : State, step s = .next t →
    (s.err = false → t.err = true → turnOf s = .engine ∧ s.busy = true ∧ ∃ e, t.errCode = errorNumber e) ∧
    (turnOf s = .engine → s.busy = true → s.done = false → t.done = false → t.err = true) ∧
    (s.err = true → t.err = false → turnOf s = .reset ∨ ∃ d, HostWrites s 0x0004 d ∧ d.getLsbD 2 = true) ∧
    (∀ d, HostWrites s 0x0004 d → d.getLsbD 2 = true → t.err = false ∧ t.errCode = 0 ∧ errorClass t.errCode = 0) ∧
    (turnOf s = .reset → t.err = false) ∧
    (∀ w, HostWrites s 0x0000 w → s.err = true →
      t.drop = true ∧ t.cmdReg = s.cmdReg ∧ t.busy = s.busy ∧ t.err = true ∧ t.errCode = s.errCode)

/-- The record of an error, its code and the failing word, lasts until the host acknowledges it or until reset (R104, R108). -/
def Obligations.ErrorRecordIsKept : Prop :=
  ∀ s t : State, StatusInv s → s.err = true → step s = .next t → turnOf s ≠ .reset →
    (∀ d, HostWrites s 0x0004 d → d.getLsbD 2 = false) → t.err = true ∧ t.errCode = s.errCode ∧ t.cmdReg = s.cmdReg

/-- R27: which host writes are discarded, that a discarded write sets DROP and changes nothing else, that DROP is sticky, that writes
to read-only and reserved locations leave DROP alone, and that STATUS writes are never discarded. -/
def Obligations.DiscardedWritesOnlySetDrop : Prop :=
  (∀ (s : State) (d : Word) (l : Loc), s.busy = true →
    (l = .cmd ∨ l = .a ∨ l = .b ∨ ∃ bank i, bank ≠ .sy ∧ l = .entry bank i) →
    busWrite (offsetOf l) d s = (.okay 0, { s with drop := true })) ∧
  (∀ (s : State) (d : Word), s.busy = false → s.err = true →
    busWrite (offsetOf .cmd) d s = (.okay 0, { s with drop := true })) ∧
  (∀ (s : State) (d : Word), (busWrite (offsetOf .status) d s).2.drop = (s.drop && !d.getLsbD 3)) ∧
  (∀ (s : State) (d : Word) (addr : Offset),
    (targetOf addr = .reserved ∨ addr = offsetOf .r ∨ addr = offsetOf .prime ∨ ∃ i, addr = offsetOf (.entry .sy i)) →
    (busWrite addr d s).2.drop = s.drop) ∧
  (∀ s t : State, step s = .next t → s.drop = true → t.drop = false →
    turnOf s = .reset ∨ ∃ d, HostWrites s 0x0004 d ∧ d.getLsbD 3 = true)

/-- R22: CMDREG holds the last accepted command word; it is read at any time; a discarded write and WIPE leave it. -/
def Obligations.CmdRegHoldsLastAcceptedWord : Prop :=
  (∀ s : State, busRead 0x0000 s = (.okay s.cmdReg, s)) ∧
  (∀ (s : State) (w : Word), s.busy = false → s.err = false → (busWrite 0x0000 w s).2.cmdReg = w) ∧
  (∀ (s : State) (w : Word), s.busy = true ∨ s.err = true → (busWrite 0x0000 w s).2.cmdReg = s.cmdReg) ∧
  (∀ s t : State, step s = .next t → t.cmdReg ≠ s.cmdReg →
    turnOf s = .reset ∨ ∃ w, HostWrites s 0x0000 w ∧ s.busy = false ∧ s.err = false ∧ t.cmdReg = w) ∧
  (∀ s t : State, step s = .next t → Completes s .wipe → t.cmdReg = 0x00000009) ∧
  State.reset.cmdReg = 0x00000000

/-! The bus -/

/-- The address map of R37: each location has the offset the table gives it, and an offset leads to that location only. -/
def Obligations.AddressMap : Prop :=
  (∀ l : Loc, targetOf (offsetOf l) = .loc l) ∧
  (∀ (addr : Offset) (l : Loc), targetOf addr = .loc l → addr = offsetOf l) ∧
  targetOf 0x0000 = .loc .cmd ∧ targetOf 0x0004 = .loc .status ∧ targetOf 0x0008 = .loc .a ∧ targetOf 0x000C = .loc .b ∧
  targetOf 0x0010 = .loc .r ∧ targetOf 0x0014 = .loc .prime ∧
  (∀ i : Fin Config.arrayDepth,
    (offsetOf (.entry .coef i)).toNat = 0x0400 + 4 * i.val ∧ (offsetOf (.entry .px i)).toNat = 0x0800 + 4 * i.val ∧
    (offsetOf (.entry .py i)).toNat = 0x0C00 + 4 * i.val ∧ (offsetOf (.entry .sy i)).toNat = 0x1000 + 4 * i.val)

/-- R40: what an aligned read returns at each location; it changes no state of the block. While BUSY = 1 a data location returns a
free value v, about which this says nothing; the model counts such reads outside the block (log entry 1). -/
def Obligations.ReadsReturnTheLocation : Prop :=
  ∀ s : State,
    busRead (offsetOf .cmd) s = (.okay s.cmdReg, s) ∧
    busRead (offsetOf .status) s = (.okay (0#18 ++ errorClass s.errCode ++ s.errCode ++ 0#4 ++ BitVec.ofBool s.drop
      ++ BitVec.ofBool s.err ++ BitVec.ofBool s.done ++ BitVec.ofBool s.busy), s) ∧
    busRead (offsetOf .prime) s = (.okay 0x0000FFF1, s) ∧
    (∀ addr : Offset, targetOf addr = .reserved → busRead addr s = (.okay 0, s)) ∧
    (s.busy = false →
      busRead (offsetOf .a) s = (.okay (s.a.setWidth 32), s) ∧ busRead (offsetOf .b) s = (.okay (s.b.setWidth 32), s) ∧
      busRead (offsetOf .r) s = (.okay (s.r.setWidth 32), s) ∧
      ∀ i : Fin Config.arrayDepth,
        busRead (offsetOf (.entry .coef i)) s = (.okay ((readEntry s.coef i.val).setWidth 32), s) ∧
        busRead (offsetOf (.entry .px i)) s = (.okay ((readEntry s.px i.val).setWidth 32), s) ∧
        busRead (offsetOf (.entry .py i)) s = (.okay ((readEntry s.py i.val).setWidth 32), s) ∧
        busRead (offsetOf (.entry .sy i)) s = (.okay ((readEntry s.sy i.val).setWidth 32), s)) ∧
    (s.busy = true → ∀ l : Loc, (l = .a ∨ l = .b ∨ l = .r ∨ ∃ bank i, l = .entry bank i) →
      ∃ (v : Word) (n : Nat), busRead (offsetOf l) s = (.okay v, { s with draws := n }))

/-- R41: the effect of an aligned write at each location, and its response. -/
def Obligations.WritesChangeTheLocation : Prop :=
  ∀ (s : State) (d : Word),
    (s.busy = true ∨ s.err = true → busWrite (offsetOf .cmd) d s = (.okay 0, { s with drop := true })) ∧
    (s.busy = false → s.err = false → busWrite (offsetOf .cmd) d s =
      (.okay 0, { s with cmdReg := d, busy := true, done := false, errCode := 0 })) ∧
    busWrite (offsetOf .status) d s = (.okay 0, { s with
      done := s.done && !d.getLsbD 1, err := s.err && !d.getLsbD 2,
      errCode := if d.getLsbD 2 then 0 else s.errCode, drop := s.drop && !d.getLsbD 3 }) ∧
    (s.busy = true → ∀ l : Loc, (l = .a ∨ l = .b ∨ ∃ bank i, bank ≠ .sy ∧ l = .entry bank i) →
      busWrite (offsetOf l) d s = (.okay 0, { s with drop := true })) ∧
    (s.busy = false →
      busWrite (offsetOf .a) d s = (.okay 0, { s with a := d.extractLsb' 0 16 }) ∧
      busWrite (offsetOf .b) d s = (.okay 0, { s with b := d.extractLsb' 0 16 }) ∧
      ∀ i : Fin Config.arrayDepth,
        busWrite (offsetOf (.entry .coef i)) d s = (.okay 0, { s with coef := writeEntry s.coef i.val (d.extractLsb' 0 16) }) ∧
        busWrite (offsetOf (.entry .px i)) d s = (.okay 0, { s with px := writeEntry s.px i.val (d.extractLsb' 0 16) }) ∧
        busWrite (offsetOf (.entry .py i)) d s = (.okay 0, { s with py := writeEntry s.py i.val (d.extractLsb' 0 16) })) ∧
    busWrite (offsetOf .r) d s = (.okay 0, s) ∧ busWrite (offsetOf .prime) d s = (.okay 0, s) ∧
    (∀ i : Fin Config.arrayDepth, busWrite (offsetOf (.entry .sy i)) d s = (.okay 0, s)) ∧
    (∀ addr : Offset, targetOf addr = .reserved → busWrite addr d s = (.okay 0, s))

/-- A store to an entry of an array is read back from that entry, and every other entry reads as before (R30, R31, R48). -/
def Obligations.StoredEntryIsReadBack : Prop :=
  ∀ (s : State) (d : Word) (x y : BankName) (i j : Fin Config.arrayDepth), s.busy = false → x ≠ .sy →
    (busRead (offsetOf (.entry y j)) (busWrite (offsetOf (.entry x i)) d s).2).1 =
      if x = y ∧ i = j then .okay ((d.extractLsb' 0 16 : Half).setWidth 32) else (busRead (offsetOf (.entry y j)) s).1

/-- R44 and R42: a misaligned transaction returns ERROR with rdata 0 and changes no state at all; an aligned reserved offset reads 0 and ignores
writes. -/
def Obligations.MisalignedAndReservedOffsets : Prop :=
  (∀ (s : State) (addr : Offset) (d : Word), addr.extractLsb' 0 2 ≠ 0#2 →
    busRead addr s = (.error, s) ∧ busWrite addr d s = (.error, s)) ∧
  rdataOf .error = 0 ∧
  (∀ (s : State) (addr : Offset) (d : Word), addr.extractLsb' 0 2 = 0#2 →
    (0x0018 ≤ addr.toNat ∧ addr.toNat ≤ 0x03FC ∨ 0x1400 ≤ addr.toNat) →
    busRead addr s = (.okay 0, s) ∧ busWrite addr d s = (.okay 0, s))

/-- R21: PRIME reads 0x0000FFF1 at all times and ignores writes. -/
def Obligations.PrimeIsConstant : Prop :=
  ∀ (s : State) (d : Word), busRead 0x0014 s = (.okay 0x0000FFF1, s) ∧ busWrite 0x0014 d s = (.okay 0, s) ∧
    (0x0000FFF1 : Word).toNat = Config.prime

/-- R45: byte lane 0 carries bits [7:0] and lane 3 bits [31:24], the lane at host byte address BASE + offset + lane for every BASE;
and the two low lanes of the word that holds a y-value in SY or PY
are the two bytes of that y in the share wire format. -/
def Obligations.BusLanesAreLittleEndian : Prop :=
  (∀ w : Word, byteLane w 0 = w.extractLsb' 0 8 ∧ byteLane w 1 = w.extractLsb' 8 8 ∧ byteLane w 2 = w.extractLsb' 16 8 ∧
    byteLane w 3 = w.extractLsb' 24 8 ∧ wordOfLanes (byteLane w 0) (byteLane w 1) (byteLane w 2) (byteLane w 3) = w) ∧
  (∀ (base : Nat) (s : State) (l : Loc) (lane : Fin 4),
    windowOffset base (base + (offsetOf l).toNat + lane.val) = some (offsetOf l + BitVec.ofNat 13 lane.val) ∧
    windowByte s (offsetOf l + BitVec.ofNat 13 lane.val) = byteLane (locWord s l) lane) ∧
  (∀ (s : State) (i : Fin Config.arrayDepth),
    [byteLane (locWord s (.entry .sy i)) 0, byteLane (locWord s (.entry .sy i)) 1] = yBytes (readEntry s.sy i.val) ∧
    [byteLane (locWord s (.entry .py i)) 0, byteLane (locWord s (.entry .py i)) 1] = yBytes (readEntry s.py i.val))

/-- Reading back a share file gives the share that was written, in either letter case, and the file has 4 + 2L bytes (R66, R67,
R69). -/
def Obligations.ShareFileRoundTrip : Prop :=
  ∀ (hexCase : Config.HexCase) (sh : Share), sh.k ≠ 0 → sh.x ≠ 0 → (∀ y ∈ sh.ys, Canonical y) →
    readShare (writeShare hexCase sh) = .ok sh ∧ (writeShare hexCase sh).length = 4 + 2 * sh.ys.length

/-! Who writes which register -/

/-- Only the host writes A and B, while BUSY = 0, and only WIPE and reset clear them; a host write of A or B while BUSY = 0 stores the
written bits [15:0] (R18, R19). -/
def Obligations.OperandRegistersChangeOnlyByHost : Prop :=
  ∀ s t : State, step s = .next t →
    (t.a ≠ s.a → (turnOf s = .reset ∧ t.a = 0) ∨ (Completes s .wipe ∧ t.a = 0) ∨
      ∃ d : Word, HostWrites s 0x0008 d ∧ s.busy = false ∧ t.a = d.extractLsb' 0 16) ∧
    (t.b ≠ s.b → (turnOf s = .reset ∧ t.b = 0) ∨ (Completes s .wipe ∧ t.b = 0) ∨
      ∃ d : Word, HostWrites s 0x000C d ∧ s.busy = false ∧ t.b = d.extractLsb' 0 16) ∧
    (∀ d : Word, HostWrites s 0x0008 d → s.busy = false → t.a = d.extractLsb' 0 16 ∧ t.b = s.b) ∧
    (∀ d : Word, HostWrites s 0x000C d → s.busy = false → t.b = d.extractLsb' 0 16 ∧ t.a = s.a)

/-- R20: R is read only; it changes only by a successful ADD, SUB, MUL, INV, DIV, EVAL or INTERP, always to a canonical value, or to 0
by WIPE and reset. -/
def Obligations.ResultRegisterChangesOnlyByCommand : Prop :=
  (∀ s : State, s.busy = false → busRead (offsetOf .r) s = (.okay (s.r.setWidth 32), s)) ∧
  (∀ (s : State) (d : Word), busWrite (offsetOf .r) d s = (.okay 0, s)) ∧
  (∀ s t : State, step s = .next t → t.r ≠ s.r →
    (turnOf s = .reset ∧ t.r = 0) ∨ (Completes s .wipe ∧ t.r = 0) ∨
      ∃ i, writesR i = true ∧ Completes s i ∧ t.done = true ∧ t.err = s.err ∧ Canonical t.r) ∧
  (∀ s t : State, step s = .next t → turnOf s = .engine → s.err = false → t.err = true → t.r = s.r) ∧
  State.reset.r = 0

/-- COEF, PX and PY change only by a host write of one entry while BUSY = 0, by WIPE and reset, and COEF also by SPLIT's wipe; a host
write of an entry while BUSY = 0 stores the written bits [15:0] there and leaves the other arrays (R30 to R32). -/
def Obligations.OperandArraysChangeOnlyByHost : Prop :=
  ∀ s t : State, step s = .next t → ∀ bank : BankName, bank ≠ .sy →
    (getBank t bank ≠ getBank s bank →
      turnOf s = .reset ∨ Completes s .wipe ∨ (bank = .coef ∧ ∃ k n, Completes s (.split k n)) ∨
        ∃ (i : Fin Config.arrayDepth) (d : Word), HostWrites s (offsetOf (.entry bank i)) d ∧ s.busy = false ∧
          getBank t bank = writeEntry (getBank s bank) i.val (d.extractLsb' 0 16)) ∧
    (∀ (i : Fin Config.arrayDepth) (d : Word), HostWrites s (offsetOf (.entry bank i)) d → s.busy = false →
      getBank t bank = writeEntry (getBank s bank) i.val (d.extractLsb' 0 16) ∧
        ∀ other : BankName, other ≠ bank → getBank t other = getBank s other)

/-- R33: SY is read only; a successful SPLIT writes its first N entries, each canonical, and leaves the others; a failed SPLIT leaves
all of SY; WIPE and reset clear it; nothing else changes it. -/
def Obligations.ShareArrayChangesOnlyBySplit : Prop :=
  (∀ (s : State) (i : Fin Config.arrayDepth), s.busy = false →
    busRead (offsetOf (.entry .sy i)) s = (.okay ((readEntry s.sy i.val).setWidth 32), s)) ∧
  (∀ (s : State) (i : Fin Config.arrayDepth) (d : Word), busWrite (offsetOf (.entry .sy i)) d s = (.okay 0, s)) ∧
  (∀ (s : State) (k n : Nat), 1 ≤ k → k ≤ n → n ≤ 255 → coefAt s 0 < Config.prime →
    ∃ t, exec (.split k n) s = .next t ∧
      (∀ x, 1 ≤ x → x ≤ n →
        ((readEntry t.sy (x - 1)).toNat : Int) = polynomial (coefAt s) k x % (Config.prime : Int)) ∧
      ∀ j, n ≤ j → readEntry t.sy j = readEntry s.sy j) ∧
  (∀ (s t : State) (k n : Nat) (e : ErrorCode), exec (.split k n) s = .next t → splitError k n s = some e → t.sy = s.sy) ∧
  (∀ s t : State, step s = .next t → t.sy ≠ s.sy →
    turnOf s = .reset ∨ Completes s .wipe ∨ ∃ k n, Completes s (.split k n) ∧ t.done = true) ∧
  (∀ s t : State, step s = .next t → (turnOf s = .reset ∨ Completes s .wipe) → AllZero t.sy) ∧ AllZero State.reset.sy

/-- Every step keeps R and every entry of SY canonical (R5, R20, R33, R88(a)). -/
def Obligations.CanonicalResultsKept : Prop :=
  ∀ s t : State, CanonicalResults s → step s = .next t → CanonicalResults t

/-! The commands -/

/-- R95: NOP completes and changes no data; it does not clear ERR, and written while ERR = 1 it is discarded. -/
def Obligations.NopCompletesAndChangesNoData : Prop :=
  (∀ w : Word, decode w = .ok .nop ↔ w = 0x00000000) ∧
  (∀ s : State, ∃ t, exec .nop s = .next t ∧ Succeeded s t ∧ KeepsAllData s t) ∧
  (∀ s : State, s.err = true → busWrite (offsetOf .cmd) 0x00000000 s = (.okay 0, { s with drop := true }))

/-- R72: ADD. -/
def Obligations.AddIsModularSum : Prop :=
  (∀ w : Word, decode w = .ok .add ↔ w = 0x00000001) ∧
  ∀ s : State, ∃ t, exec .add s = .next t ∧ t.r.toNat = (s.a.toNat + s.b.toNat) % Config.prime ∧
    Succeeded s t ∧ KeepsAllButR s t

/-- R73: SUB, by true modulo. -/
def Obligations.SubIsModularDifference : Prop :=
  (∀ w : Word, decode w = .ok .sub ↔ w = 0x00000002) ∧
  ∀ s : State, ∃ t, exec .sub s = .next t ∧
    (t.r.toNat : Int) = ((s.a.toNat : Int) - (s.b.toNat : Int)) % (Config.prime : Int) ∧ Succeeded s t ∧ KeepsAllButR s t

/-- R74: MUL, of the exact product. -/
def Obligations.MulIsModularProduct : Prop :=
  (∀ w : Word, decode w = .ok .mul ↔ w = 0x00000003) ∧
  ∀ s : State, ∃ t, exec .mul s = .next t ∧ t.r.toNat = s.a.toNat * s.b.toNat % Config.prime ∧
    Succeeded s t ∧ KeepsAllButR s t

/-- R77: INV gives the inverse of A in [1, p-1], and fails with NOT_INVERTIBLE exactly when A is 0 or 65521. -/
def Obligations.InvIsTheFieldInverse : Prop :=
  (∀ w : Word, decode w = .ok .inv ↔ w = 0x00000004) ∧
  (∀ s : State, s.a ≠ 0 → s.a ≠ 65521 → ∃ t, exec .inv s = .next t ∧ 1 ≤ t.r.toNat ∧ t.r.toNat < Config.prime ∧
    s.a.toNat * t.r.toNat % Config.prime = 1 ∧ Succeeded s t ∧ KeepsAllButR s t) ∧
  (∀ s : State, s.a = 0 ∨ s.a = 65521 → ∃ t, exec .inv s = .next t ∧ Failed .notInvertible s t ∧ t.errCode = 5 ∧
    errorClass t.errCode = 2 ∧ KeepsAllData s t)

/-- R78: DIV gives A times the inverse of B, and fails with NOT_INVERTIBLE exactly when B is 0 or 65521, whatever A is. -/
def Obligations.DivIsModularQuotient : Prop :=
  (∀ w : Word, decode w = .ok .div ↔ w = 0x00000005) ∧
  (∀ s : State, s.b ≠ 0 → s.b ≠ 65521 → ∃ t, exec .div s = .next t ∧ t.r.toNat < Config.prime ∧
    (∀ v : Nat, s.b.toNat * v % Config.prime = 1 → t.r.toNat = s.a.toNat * v % Config.prime) ∧
    t.r.toNat * s.b.toNat % Config.prime = s.a.toNat % Config.prime ∧ Succeeded s t ∧ KeepsAllButR s t) ∧
  (∀ s : State, s.b = 0 ∨ s.b = 65521 → ∃ t, exec .div s = .next t ∧ Failed .notInvertible s t ∧ t.errCode = 5 ∧
    errorClass t.errCode = 2 ∧ KeepsAllData s t)

/-- R83: EVAL gives the polynomial's value at A, fails with ARG_ZERO when K = 0, and never wipes COEF. -/
def Obligations.EvalIsThePolynomialValue : Prop :=
  (∀ (w : Word) (k : Nat), decode w = .ok (.eval k) ↔ k ≤ 255 ∧ w.toNat = k * 2 ^ 8 + 0x6) ∧
  (∀ (s : State) (k : Nat), 1 ≤ k → k ≤ 255 → ∃ t, exec (.eval k) s = .next t ∧
    (t.r.toNat : Int) = polynomial (coefAt s) k (s.a.toNat : Int) % (Config.prime : Int) ∧
    Succeeded s t ∧ KeepsAllButR s t) ∧
  (∀ s : State, ∃ t, exec (.eval 0) s = .next t ∧ Failed .argZero s t ∧ t.errCode = 1 ∧ KeepsAllData s t)

/-- R84 and R85: SPLIT's checks in their order, and what it writes: the share values at 1..N into SY[0..N-1], zeros into COEF, and
STATUS. -/
def Obligations.SplitWritesTheShares : Prop :=
  (∀ (w : Word) (k n : Nat), decode w = .ok (.split k n) ↔
    k ≤ 255 ∧ n ≤ 255 ∧ w.toNat = n * 2 ^ 16 + k * 2 ^ 8 + 0x7) ∧
  (∀ (s : State) (k n : Nat), k ≤ 255 → n ≤ 255 → (k = 0 ∨ n = 0) →
    ∃ t, exec (.split k n) s = .next t ∧ SplitFailed .argZero s t ∧ t.errCode = 1) ∧
  (∀ (s : State) (k n : Nat), k ≤ 255 → 1 ≤ n → n < k →
    ∃ t, exec (.split k n) s = .next t ∧ SplitFailed .argKGtN s t ∧ t.errCode = 2) ∧
  (∀ (s : State) (k n : Nat), 1 ≤ k → k ≤ n → n ≤ 255 → Config.prime ≤ (readEntry s.coef 0).toNat →
    ∃ t, exec (.split k n) s = .next t ∧ SplitFailed .secretGePrime s t ∧ t.errCode = 3) ∧
  (∀ (s : State) (k n : Nat), 1 ≤ k → k ≤ n → n ≤ 255 → (readEntry s.coef 0).toNat < Config.prime →
    ∃ t, exec (.split k n) s = .next t ∧
      (∀ x, 1 ≤ x → x ≤ n →
        ((readEntry t.sy (x - 1)).toNat : Int) = polynomial (coefAt s) k x % (Config.prime : Int)) ∧
      (∀ j, n ≤ j → readEntry t.sy j = readEntry s.sy j) ∧ AllZero t.coef ∧ t.r = s.r ∧
      Succeeded s t ∧ SameInputs s t ∧ SameOutside s t)

/-- R86: every completion of a command that decodes as SPLIT zeroes COEF, so that a read of it returns 0; a word with OP = 7 and a
reserved bit set is no SPLIT, and its completion does not wipe. -/
def Obligations.SplitWipesOnEveryExitPath : Prop :=
  (∀ (s : State) (k n : Nat), decode s.cmdReg = .ok (.split k n) →
    ∃ t, complete s = .next t ∧ AllZero t.coef ∧
      ∀ i : Fin Config.arrayDepth, busRead (offsetOf (.entry .coef i)) t = (.okay 0, t)) ∧
  (∀ s : State, opOf s.cmdReg = 0x7 → (rsv0Of s.cmdReg ≠ 0 ∨ rsv1Of s.cmdReg ≠ 0) →
    ∃ t, complete s = .next t ∧ Failed .illegalCommand s t ∧ t.coef = s.coef)

/-- R90, R92 and R93: INTERP's checks in their order, and its result, R91's value at 0, in R. -/
def Obligations.InterpReconstructsTheConstantTerm : Prop :=
  (∀ (w : Word) (m k : Nat), decode w = .ok (.interp m k) ↔
    m ≤ 255 ∧ k ≤ 255 ∧ w.toNat = k * 2 ^ 16 + m * 2 ^ 8 + 0x8) ∧
  (∀ (s : State) (m k : Nat), m ≤ 255 → k ≤ 255 → (m = 0 ∨ k = 0) →
    ∃ t, exec (.interp m k) s = .next t ∧ Failed .argZero s t ∧ t.errCode = 1 ∧ KeepsAllData s t) ∧
  (∀ (s : State) (m k : Nat), 1 ≤ m → m < k → k ≤ 255 →
    ∃ t, exec (.interp m k) s = .next t ∧ Failed .tooFewPoints s t ∧ t.errCode = 6 ∧ KeepsAllData s t) ∧
  (∀ (s : State) (m k i j : Nat), 1 ≤ k → k ≤ m → m ≤ 255 → i < j → j < m →
    (readEntry s.px i).toNat % Config.prime = (readEntry s.px j).toNat % Config.prime →
    ∃ t, exec (.interp m k) s = .next t ∧ Failed .duplicateX s t ∧ t.errCode = 4 ∧ KeepsAllData s t) ∧
  (∀ (s : State) (m k : Nat), 1 ≤ k → k ≤ m → m ≤ 255 → DistinctX (pxAt s) m →
    ∃ t, exec (.interp m k) s = .next t ∧ Canonical t.r ∧
      (∀ c : Nat → Int, PassesThrough c (pxAt s) (pyAt s) m → (t.r.toNat : Int) = c 0 % (Config.prime : Int)) ∧
      (∃ c : Nat → Int, PassesThrough c (pxAt s) (pyAt s) m) ∧ Succeeded s t ∧ KeepsAllButR s t)

/-- R96: WIPE zeroes A, B, R and every array, keeps CMDREG and DROP, and every later read of that data returns 0. -/
def Obligations.WipeZeroesAllData : Prop :=
  (∀ w : Word, decode w = .ok .wipe ↔ w = 0x00000009) ∧
  ∀ s : State, ∃ t, exec .wipe s = .next t ∧ Succeeded s t ∧ t.cmdReg = s.cmdReg ∧ t.a = 0 ∧ t.b = 0 ∧ t.r = 0 ∧
    AllZero t.coef ∧ AllZero t.px ∧ AllZero t.py ∧ AllZero t.sy ∧ SameOutside s t ∧
    ∀ l : Loc, isData l = true → busRead (offsetOf l) t = (.okay 0, t)

/-- After WIPE the host can learn nothing of the data before it: two blocks that agree in CMDREG, DROP and the record of errors
answer every read alike after WIPE, whatever secrets they held (R96). -/
def Obligations.WipeErasesEverySecret : Prop :=
  ∀ s u t v : State, s.cmdReg = u.cmdReg → s.drop = u.drop → s.err = u.err → s.errCode = u.errCode →
    exec .wipe s = .next t → exec .wipe u = .next v → ∀ addr : Offset, (busRead addr t).1 = (busRead addr v).1

/-- R98: what each command writes, on success and on error, and that it writes nothing else; STATUS is written as a success or an
error writes it (R101); the illegal command never succeeds and writes nothing. -/
def Obligations.CommandsWriteOnlyTheirFrame : Prop :=
  (∀ (i : Instr) (s : State), s.err = false → ∃ t, exec i s = .next t ∧ FrameRow i s t ∧ t.cmdReg = s.cmdReg ∧
    t.drop = s.drop ∧ SameOutside s t ∧ (Succeeded s t ∨ ∃ e, Failed e s t)) ∧
  (∀ s : State, ∃ t, execIllegal s = .next t ∧ Failed .illegalCommand s t ∧ KeepsAllData s t)

/-! The arithmetic -/

/-- R76: the inverse is the unique r in [1, p-1] with a * r congruent to 1. -/
def Obligations.InverseIsUnique : Prop :=
  (∀ a : Int, modp a ≠ 0 → 1 ≤ inv a ∧ inv a ≤ (Config.prime : Int) - 1 ∧ modp (a * inv a) = 1 ∧
    ∀ r : Int, 1 ≤ r → r ≤ (Config.prime : Int) - 1 → modp (a * r) = 1 → r = inv a) ∧
  (∀ a : Int, inv a = modp (extendedGcd (modp a).toNat Config.prime).1) ∧
  extendedGcd 2 65521 = (-32760, 1)

/-- The contract of `extended_gcd` (R75): a*x + b*y = gcd(a, b). -/
def Obligations.ExtendedGcdIsBezout : Prop :=
  ∀ a b : Nat, (a ≠ 0 ∨ b ≠ 0) →
    (a : Int) * (extendedGcd a b).1 + (b : Int) * (extendedGcd a b).2 = (Nat.gcd a b : Int)

/-- R80: (a) `mod` gives the value in [0, b) congruent to a for every integer a; (b) after a DIV, MUL of its result by the denominator
gives modp of the numerator. -/
def Obligations.TrueModuloAndDivTimesDenominator : Prop :=
  (∀ a b : Int, 0 < b → 0 ≤ trueMod a b ∧ trueMod a b < b ∧ b ∣ a - trueMod a b) ∧
  (∀ s : State, s.b.toNat % Config.prime ≠ 0 → ∃ t u, exec .div s = .next t ∧ exec .mul { t with a := t.r } = .next u ∧
    u.r.toNat = s.a.toNat % Config.prime)

/-- The result of a field command depends only on the residues of its operands (R71). -/
def Obligations.FieldCommandsSeeResiduesOnly : Prop :=
  ∀ (i : Instr) (s u : State), (i = .add ∨ i = .sub ∨ i = .mul ∨ i = .inv ∨ i = .div) → u.r = s.r →
    s.a.toNat % Config.prime = u.a.toNat % Config.prime → s.b.toNat % Config.prime = u.b.toNat % Config.prime →
    ∃ t v, exec i s = .next t ∧ exec i u = .next v ∧ v.r = t.r ∧ (u.err = s.err → v.err = t.err)

/-- Horner's loop gives the polynomial's value mod p. The spec marks this as its own inference, in R82: "Its value equals
`modp(Σ_{i=0}^{K−1} COEF[i] · x^i)` [derived: by induction on the loop, since modp is a ring homomorphism from the integers onto Zp]". -/
def Obligations.HornerIsThePolynomial : Prop :=
  ∀ (c : Nat → Int) (k : Nat) (x : Int), 1 ≤ k →
    horner c k x = polynomial c k x % (Config.prime : Int) ∧ 0 ≤ horner c k x ∧ horner c k x < (Config.prime : Int)

/-- R91: for points with distinct x residues a polynomial of degree at most m - 1 through them exists, all such polynomials have the
same constant term mod p, and Lagrange's formula computes it. -/
def Obligations.LagrangeIsTheInterpolantAtZero : Prop :=
  (∀ (px py : Nat → Int) (m : Nat), 1 ≤ m → DistinctX px m →
    0 ≤ lagrange0 px py m ∧ lagrange0 px py m < (Config.prime : Int) ∧
    (∃ c : Nat → Int, PassesThrough c px py m) ∧
    ∀ c : Nat → Int, PassesThrough c px py m → lagrange0 px py m = c 0 % (Config.prime : Int)) ∧
  (∀ px py : Nat → Int, lagrange0 px py 1 = modp (py 0))

/-- The duplicate check is the zero-denominator check (R92): a denominator is 0 mod p exactly when another x is congruent to its own,
so INTERP never reports NOT_INVERTIBLE. -/
def Obligations.DuplicateCheckIsZeroDenominatorCheck : Prop :=
  (∀ (px : Nat → Int) (m i : Nat), i < m →
    (modp (lagrangeDen px m i) = 0 ↔ ∃ j, j < m ∧ j ≠ i ∧ modp (px j) = modp (px i))) ∧
  (∀ (s : State) (m k : Nat), s.errCode = 0 → ∃ t, exec (.interp m k) s = .next t ∧ t.errCode ≠ errorNumber .notInvertible)

/-! Properties of the scheme -/

/-- SPLIT's shares are what EVAL gives at each abscissa, and they depend only on K and COEF[0..K-1] (R88(b), R88(d)). -/
def Obligations.SplitAgreesWithEval : Prop :=
  (∀ (s : State) (k n x : Nat), 1 ≤ k → k ≤ n → n ≤ 255 → (readEntry s.coef 0).toNat < Config.prime → 1 ≤ x → x ≤ n →
    ∃ t v, exec (.split k n) s = .next t ∧ exec (.eval k) { s with a := BitVec.ofNat 16 x } = .next v ∧
      readEntry t.sy (x - 1) = v.r) ∧
  (∀ (s u : State) (k n m : Nat), 1 ≤ k → k ≤ n → n ≤ m → m ≤ 255 → (readEntry s.coef 0).toNat < Config.prime →
    (∀ i < k, readEntry u.coef i = readEntry s.coef i) →
    ∃ t v, exec (.split k n) s = .next t ∧ exec (.split k m) u = .next v ∧
      ∀ j < n, readEntry v.sy j = readEntry t.sy j)

/-- Reconstruction (R94(a)): from any M ≥ k of the shares of SPLIT k, n, INTERP M, k recovers COEF[0]. -/
def Obligations.ReconstructionRecoversTheSecret : Prop :=
  ∀ (s u : State) (k n m : Nat) (x : Nat → Nat), 1 ≤ k → k ≤ n → n ≤ 255 → (readEntry s.coef 0).toNat < Config.prime →
    k ≤ m → (∀ j < m, 1 ≤ x j ∧ x j ≤ n) → (∀ i j, i < j → j < m → x i ≠ x j) →
    ∃ t, exec (.split k n) s = .next t ∧
      ((∀ j < m, readEntry u.px j = BitVec.ofNat 16 (x j) ∧ readEntry u.py j = readEntry t.sy (x j - 1)) →
        ∃ v, exec (.interp m k) u = .next v ∧ v.r = readEntry s.coef 0 ∧ Succeeded u v)

/-- The order of the points in PX and PY does not change R (R94(d)). -/
def Obligations.PointOrderDoesNotMatter : Prop :=
  ∀ (s u : State) (m k : Nat) (f : Nat → Nat), 1 ≤ k → k ≤ m → m ≤ 255 → DistinctX (pxAt s) m →
    (∀ j < m, f j < m) → (∀ i j, i < m → j < m → f i = f j → i = j) →
    (∀ j < m, readEntry u.px j = readEntry s.px (f j) ∧ readEntry u.py j = readEntry s.py (f j)) →
    ∃ t v, exec (.interp m k) s = .next t ∧ exec (.interp m k) u = .next v ∧ v.r = t.r ∧ Succeeded u v
end

