-- ==== Sys2Proof/Laws/State.lean ====
section
/-! SUPPORT. What each named update of the state does to each field: one lemma per field and update, true by definition. -/

namespace Sys2Proof.Machine

variable (s : State)

@[simp] theorem completeOk_cmdReg : (completeOk s).cmdReg = s.cmdReg := rfl
@[simp] theorem completeOk_busy : (completeOk s).busy = false := rfl
@[simp] theorem completeOk_done : (completeOk s).done = true := rfl
@[simp] theorem completeOk_err : (completeOk s).err = s.err := rfl
@[simp] theorem completeOk_drop : (completeOk s).drop = s.drop := rfl
@[simp] theorem completeOk_errCode : (completeOk s).errCode = s.errCode := rfl
@[simp] theorem completeOk_a : (completeOk s).a = s.a := rfl
@[simp] theorem completeOk_b : (completeOk s).b = s.b := rfl
@[simp] theorem completeOk_r : (completeOk s).r = s.r := rfl
@[simp] theorem completeOk_coef : (completeOk s).coef = s.coef := rfl
@[simp] theorem completeOk_px : (completeOk s).px = s.px := rfl
@[simp] theorem completeOk_py : (completeOk s).py = s.py := rfl
@[simp] theorem completeOk_sy : (completeOk s).sy = s.sy := rfl
@[simp] theorem completeOk_host : (completeOk s).host = s.host := rfl
@[simp] theorem completeOk_turns : (completeOk s).turns = s.turns := rfl
@[simp] theorem completeOk_responses : (completeOk s).responses = s.responses := rfl
@[simp] theorem completeOk_draws : (completeOk s).draws = s.draws := rfl

@[simp] theorem raiseError_cmdReg (e : ErrorCode) : (raiseError e s).cmdReg = s.cmdReg := rfl
@[simp] theorem raiseError_busy (e : ErrorCode) : (raiseError e s).busy = false := rfl
@[simp] theorem raiseError_done (e : ErrorCode) : (raiseError e s).done = s.done := rfl
@[simp] theorem raiseError_err (e : ErrorCode) : (raiseError e s).err = true := rfl
@[simp] theorem raiseError_drop (e : ErrorCode) : (raiseError e s).drop = s.drop := rfl
@[simp] theorem raiseError_errCode (e : ErrorCode) : (raiseError e s).errCode = errorNumber e := rfl
@[simp] theorem raiseError_a (e : ErrorCode) : (raiseError e s).a = s.a := rfl
@[simp] theorem raiseError_b (e : ErrorCode) : (raiseError e s).b = s.b := rfl
@[simp] theorem raiseError_r (e : ErrorCode) : (raiseError e s).r = s.r := rfl
@[simp] theorem raiseError_coef (e : ErrorCode) : (raiseError e s).coef = s.coef := rfl
@[simp] theorem raiseError_px (e : ErrorCode) : (raiseError e s).px = s.px := rfl
@[simp] theorem raiseError_py (e : ErrorCode) : (raiseError e s).py = s.py := rfl
@[simp] theorem raiseError_sy (e : ErrorCode) : (raiseError e s).sy = s.sy := rfl
@[simp] theorem raiseError_host (e : ErrorCode) : (raiseError e s).host = s.host := rfl
@[simp] theorem raiseError_turns (e : ErrorCode) : (raiseError e s).turns = s.turns := rfl
@[simp] theorem raiseError_responses (e : ErrorCode) : (raiseError e s).responses = s.responses := rfl
@[simp] theorem raiseError_draws (e : ErrorCode) : (raiseError e s).draws = s.draws := rfl

@[simp] theorem accept_cmdReg (w : Word) : (accept w s).cmdReg = w := rfl
@[simp] theorem accept_busy (w : Word) : (accept w s).busy = true := rfl
@[simp] theorem accept_done (w : Word) : (accept w s).done = false := rfl
@[simp] theorem accept_err (w : Word) : (accept w s).err = s.err := rfl
@[simp] theorem accept_drop (w : Word) : (accept w s).drop = s.drop := rfl
@[simp] theorem accept_errCode (w : Word) : (accept w s).errCode = 0 := rfl
@[simp] theorem accept_a (w : Word) : (accept w s).a = s.a := rfl
@[simp] theorem accept_b (w : Word) : (accept w s).b = s.b := rfl
@[simp] theorem accept_r (w : Word) : (accept w s).r = s.r := rfl
@[simp] theorem accept_coef (w : Word) : (accept w s).coef = s.coef := rfl
@[simp] theorem accept_px (w : Word) : (accept w s).px = s.px := rfl
@[simp] theorem accept_py (w : Word) : (accept w s).py = s.py := rfl
@[simp] theorem accept_sy (w : Word) : (accept w s).sy = s.sy := rfl
@[simp] theorem accept_host (w : Word) : (accept w s).host = s.host := rfl
@[simp] theorem accept_turns (w : Word) : (accept w s).turns = s.turns := rfl
@[simp] theorem accept_responses (w : Word) : (accept w s).responses = s.responses := rfl
@[simp] theorem accept_draws (w : Word) : (accept w s).draws = s.draws := rfl

@[simp] theorem resetBlock_cmdReg : (resetBlock s).cmdReg = 0 := rfl
@[simp] theorem resetBlock_busy : (resetBlock s).busy = false := rfl
@[simp] theorem resetBlock_done : (resetBlock s).done = false := rfl
@[simp] theorem resetBlock_err : (resetBlock s).err = false := rfl
@[simp] theorem resetBlock_drop : (resetBlock s).drop = false := rfl
@[simp] theorem resetBlock_errCode : (resetBlock s).errCode = 0 := rfl
@[simp] theorem resetBlock_a : (resetBlock s).a = 0 := rfl
@[simp] theorem resetBlock_b : (resetBlock s).b = 0 := rfl
@[simp] theorem resetBlock_r : (resetBlock s).r = 0 := rfl
@[simp] theorem resetBlock_coef : (resetBlock s).coef = zeroBank := rfl
@[simp] theorem resetBlock_px : (resetBlock s).px = zeroBank := rfl
@[simp] theorem resetBlock_py : (resetBlock s).py = zeroBank := rfl
@[simp] theorem resetBlock_sy : (resetBlock s).sy = zeroBank := rfl
@[simp] theorem resetBlock_host : (resetBlock s).host = s.host := rfl
@[simp] theorem resetBlock_turns : (resetBlock s).turns = s.turns := rfl
@[simp] theorem resetBlock_responses : (resetBlock s).responses = s.responses := rfl
@[simp] theorem resetBlock_draws : (resetBlock s).draws = s.draws := rfl

@[simp] theorem writeStatus_cmdReg (d : Word) : (writeStatus d s).cmdReg = s.cmdReg := rfl
@[simp] theorem writeStatus_busy (d : Word) : (writeStatus d s).busy = s.busy := rfl
@[simp] theorem writeStatus_done (d : Word) : (writeStatus d s).done = if d.getLsbD 1 then false else s.done := rfl
@[simp] theorem writeStatus_err (d : Word) : (writeStatus d s).err = if d.getLsbD 2 then false else s.err := rfl
@[simp] theorem writeStatus_drop (d : Word) : (writeStatus d s).drop = if d.getLsbD 3 then false else s.drop := rfl
@[simp] theorem writeStatus_errCode (d : Word) : (writeStatus d s).errCode = if d.getLsbD 2 then 0 else s.errCode := rfl
@[simp] theorem writeStatus_a (d : Word) : (writeStatus d s).a = s.a := rfl
@[simp] theorem writeStatus_b (d : Word) : (writeStatus d s).b = s.b := rfl
@[simp] theorem writeStatus_r (d : Word) : (writeStatus d s).r = s.r := rfl
@[simp] theorem writeStatus_coef (d : Word) : (writeStatus d s).coef = s.coef := rfl
@[simp] theorem writeStatus_px (d : Word) : (writeStatus d s).px = s.px := rfl
@[simp] theorem writeStatus_py (d : Word) : (writeStatus d s).py = s.py := rfl
@[simp] theorem writeStatus_sy (d : Word) : (writeStatus d s).sy = s.sy := rfl
@[simp] theorem writeStatus_host (d : Word) : (writeStatus d s).host = s.host := rfl
@[simp] theorem writeStatus_turns (d : Word) : (writeStatus d s).turns = s.turns := rfl
@[simp] theorem writeStatus_responses (d : Word) : (writeStatus d s).responses = s.responses := rfl
@[simp] theorem writeStatus_draws (d : Word) : (writeStatus d s).draws = s.draws := rfl

@[simp] theorem setDrop_cmdReg : (setDrop s).cmdReg = s.cmdReg := rfl
@[simp] theorem setDrop_busy : (setDrop s).busy = s.busy := rfl
@[simp] theorem setDrop_done : (setDrop s).done = s.done := rfl
@[simp] theorem setDrop_err : (setDrop s).err = s.err := rfl
@[simp] theorem setDrop_drop : (setDrop s).drop = true := rfl
@[simp] theorem setDrop_errCode : (setDrop s).errCode = s.errCode := rfl
@[simp] theorem setDrop_a : (setDrop s).a = s.a := rfl
@[simp] theorem setDrop_b : (setDrop s).b = s.b := rfl
@[simp] theorem setDrop_r : (setDrop s).r = s.r := rfl
@[simp] theorem setDrop_coef : (setDrop s).coef = s.coef := rfl
@[simp] theorem setDrop_px : (setDrop s).px = s.px := rfl
@[simp] theorem setDrop_py : (setDrop s).py = s.py := rfl
@[simp] theorem setDrop_sy : (setDrop s).sy = s.sy := rfl
@[simp] theorem setDrop_host : (setDrop s).host = s.host := rfl
@[simp] theorem setDrop_turns : (setDrop s).turns = s.turns := rfl
@[simp] theorem setDrop_responses : (setDrop s).responses = s.responses := rfl
@[simp] theorem setDrop_draws : (setDrop s).draws = s.draws := rfl

@[simp] theorem setR_cmdReg (v : Int) : (setR v s).cmdReg = s.cmdReg := rfl
@[simp] theorem setR_busy (v : Int) : (setR v s).busy = s.busy := rfl
@[simp] theorem setR_done (v : Int) : (setR v s).done = s.done := rfl
@[simp] theorem setR_err (v : Int) : (setR v s).err = s.err := rfl
@[simp] theorem setR_drop (v : Int) : (setR v s).drop = s.drop := rfl
@[simp] theorem setR_errCode (v : Int) : (setR v s).errCode = s.errCode := rfl
@[simp] theorem setR_a (v : Int) : (setR v s).a = s.a := rfl
@[simp] theorem setR_b (v : Int) : (setR v s).b = s.b := rfl
@[simp] theorem setR_r (v : Int) : (setR v s).r = toHalf v := rfl
@[simp] theorem setR_coef (v : Int) : (setR v s).coef = s.coef := rfl
@[simp] theorem setR_px (v : Int) : (setR v s).px = s.px := rfl
@[simp] theorem setR_py (v : Int) : (setR v s).py = s.py := rfl
@[simp] theorem setR_sy (v : Int) : (setR v s).sy = s.sy := rfl
@[simp] theorem setR_host (v : Int) : (setR v s).host = s.host := rfl
@[simp] theorem setR_turns (v : Int) : (setR v s).turns = s.turns := rfl
@[simp] theorem setR_responses (v : Int) : (setR v s).responses = s.responses := rfl
@[simp] theorem setR_draws (v : Int) : (setR v s).draws = s.draws := rfl

@[simp] theorem wipeCoef_cmdReg : (wipeCoef s).cmdReg = s.cmdReg := rfl
@[simp] theorem wipeCoef_busy : (wipeCoef s).busy = s.busy := rfl
@[simp] theorem wipeCoef_done : (wipeCoef s).done = s.done := rfl
@[simp] theorem wipeCoef_err : (wipeCoef s).err = s.err := rfl
@[simp] theorem wipeCoef_drop : (wipeCoef s).drop = s.drop := rfl
@[simp] theorem wipeCoef_errCode : (wipeCoef s).errCode = s.errCode := rfl
@[simp] theorem wipeCoef_a : (wipeCoef s).a = s.a := rfl
@[simp] theorem wipeCoef_b : (wipeCoef s).b = s.b := rfl
@[simp] theorem wipeCoef_r : (wipeCoef s).r = s.r := rfl
@[simp] theorem wipeCoef_coef : (wipeCoef s).coef = zeroBank := rfl
@[simp] theorem wipeCoef_px : (wipeCoef s).px = s.px := rfl
@[simp] theorem wipeCoef_py : (wipeCoef s).py = s.py := rfl
@[simp] theorem wipeCoef_sy : (wipeCoef s).sy = s.sy := rfl
@[simp] theorem wipeCoef_host : (wipeCoef s).host = s.host := rfl
@[simp] theorem wipeCoef_turns : (wipeCoef s).turns = s.turns := rfl
@[simp] theorem wipeCoef_responses : (wipeCoef s).responses = s.responses := rfl
@[simp] theorem wipeCoef_draws : (wipeCoef s).draws = s.draws := rfl

@[simp] theorem storeShares_cmdReg (k n : Nat) : (storeShares k n s).cmdReg = s.cmdReg := rfl
@[simp] theorem storeShares_busy (k n : Nat) : (storeShares k n s).busy = s.busy := rfl
@[simp] theorem storeShares_done (k n : Nat) : (storeShares k n s).done = s.done := rfl
@[simp] theorem storeShares_err (k n : Nat) : (storeShares k n s).err = s.err := rfl
@[simp] theorem storeShares_drop (k n : Nat) : (storeShares k n s).drop = s.drop := rfl
@[simp] theorem storeShares_errCode (k n : Nat) : (storeShares k n s).errCode = s.errCode := rfl
@[simp] theorem storeShares_a (k n : Nat) : (storeShares k n s).a = s.a := rfl
@[simp] theorem storeShares_b (k n : Nat) : (storeShares k n s).b = s.b := rfl
@[simp] theorem storeShares_r (k n : Nat) : (storeShares k n s).r = s.r := rfl
@[simp] theorem storeShares_coef (k n : Nat) : (storeShares k n s).coef = s.coef := rfl
@[simp] theorem storeShares_px (k n : Nat) : (storeShares k n s).px = s.px := rfl
@[simp] theorem storeShares_py (k n : Nat) : (storeShares k n s).py = s.py := rfl
@[simp] theorem storeShares_sy (k n : Nat) : (storeShares k n s).sy = writeShares (fun x => horner (coefAt s) k x) n s.sy := rfl
@[simp] theorem storeShares_host (k n : Nat) : (storeShares k n s).host = s.host := rfl
@[simp] theorem storeShares_turns (k n : Nat) : (storeShares k n s).turns = s.turns := rfl
@[simp] theorem storeShares_responses (k n : Nat) : (storeShares k n s).responses = s.responses := rfl
@[simp] theorem storeShares_draws (k n : Nat) : (storeShares k n s).draws = s.draws := rfl

@[simp] theorem wipeData_cmdReg : (wipeData s).cmdReg = s.cmdReg := rfl
@[simp] theorem wipeData_busy : (wipeData s).busy = s.busy := rfl
@[simp] theorem wipeData_done : (wipeData s).done = s.done := rfl
@[simp] theorem wipeData_err : (wipeData s).err = s.err := rfl
@[simp] theorem wipeData_drop : (wipeData s).drop = s.drop := rfl
@[simp] theorem wipeData_errCode : (wipeData s).errCode = s.errCode := rfl
@[simp] theorem wipeData_a : (wipeData s).a = 0 := rfl
@[simp] theorem wipeData_b : (wipeData s).b = 0 := rfl
@[simp] theorem wipeData_r : (wipeData s).r = 0 := rfl
@[simp] theorem wipeData_coef : (wipeData s).coef = zeroBank := rfl
@[simp] theorem wipeData_px : (wipeData s).px = zeroBank := rfl
@[simp] theorem wipeData_py : (wipeData s).py = zeroBank := rfl
@[simp] theorem wipeData_sy : (wipeData s).sy = zeroBank := rfl
@[simp] theorem wipeData_host : (wipeData s).host = s.host := rfl
@[simp] theorem wipeData_turns : (wipeData s).turns = s.turns := rfl
@[simp] theorem wipeData_responses : (wipeData s).responses = s.responses := rfl
@[simp] theorem wipeData_draws : (wipeData s).draws = s.draws := rfl

@[simp] theorem respond_cmdReg (x : Response) : (respond x s).cmdReg = s.cmdReg := rfl
@[simp] theorem respond_busy (x : Response) : (respond x s).busy = s.busy := rfl
@[simp] theorem respond_done (x : Response) : (respond x s).done = s.done := rfl
@[simp] theorem respond_err (x : Response) : (respond x s).err = s.err := rfl
@[simp] theorem respond_drop (x : Response) : (respond x s).drop = s.drop := rfl
@[simp] theorem respond_errCode (x : Response) : (respond x s).errCode = s.errCode := rfl
@[simp] theorem respond_a (x : Response) : (respond x s).a = s.a := rfl
@[simp] theorem respond_b (x : Response) : (respond x s).b = s.b := rfl
@[simp] theorem respond_r (x : Response) : (respond x s).r = s.r := rfl
@[simp] theorem respond_coef (x : Response) : (respond x s).coef = s.coef := rfl
@[simp] theorem respond_px (x : Response) : (respond x s).px = s.px := rfl
@[simp] theorem respond_py (x : Response) : (respond x s).py = s.py := rfl
@[simp] theorem respond_sy (x : Response) : (respond x s).sy = s.sy := rfl
@[simp] theorem respond_host (x : Response) : (respond x s).host = s.host := rfl
@[simp] theorem respond_turns (x : Response) : (respond x s).turns = s.turns := rfl
@[simp] theorem respond_responses (x : Response) : (respond x s).responses = x :: s.responses := rfl
@[simp] theorem respond_draws (x : Response) : (respond x s).draws = s.draws := rfl

@[simp] theorem hostContinues_cmdReg (ops : List HostOp) : (hostContinues ops s).cmdReg = s.cmdReg := rfl
@[simp] theorem hostContinues_busy (ops : List HostOp) : (hostContinues ops s).busy = s.busy := rfl
@[simp] theorem hostContinues_done (ops : List HostOp) : (hostContinues ops s).done = s.done := rfl
@[simp] theorem hostContinues_err (ops : List HostOp) : (hostContinues ops s).err = s.err := rfl
@[simp] theorem hostContinues_drop (ops : List HostOp) : (hostContinues ops s).drop = s.drop := rfl
@[simp] theorem hostContinues_errCode (ops : List HostOp) : (hostContinues ops s).errCode = s.errCode := rfl
@[simp] theorem hostContinues_a (ops : List HostOp) : (hostContinues ops s).a = s.a := rfl
@[simp] theorem hostContinues_b (ops : List HostOp) : (hostContinues ops s).b = s.b := rfl
@[simp] theorem hostContinues_r (ops : List HostOp) : (hostContinues ops s).r = s.r := rfl
@[simp] theorem hostContinues_coef (ops : List HostOp) : (hostContinues ops s).coef = s.coef := rfl
@[simp] theorem hostContinues_px (ops : List HostOp) : (hostContinues ops s).px = s.px := rfl
@[simp] theorem hostContinues_py (ops : List HostOp) : (hostContinues ops s).py = s.py := rfl
@[simp] theorem hostContinues_sy (ops : List HostOp) : (hostContinues ops s).sy = s.sy := rfl
@[simp] theorem hostContinues_host (ops : List HostOp) : (hostContinues ops s).host = ops := rfl
@[simp] theorem hostContinues_turns (ops : List HostOp) : (hostContinues ops s).turns = s.turns := rfl
@[simp] theorem hostContinues_responses (ops : List HostOp) : (hostContinues ops s).responses = s.responses := rfl
@[simp] theorem hostContinues_draws (ops : List HostOp) : (hostContinues ops s).draws = s.draws := rfl

@[simp] theorem issueNow_cmdReg (w : Word) : (issueNow w s).cmdReg = w := rfl
@[simp] theorem issueNow_busy (w : Word) : (issueNow w s).busy = true := rfl
@[simp] theorem issueNow_done (w : Word) : (issueNow w s).done = false := rfl
@[simp] theorem issueNow_err (w : Word) : (issueNow w s).err = false := rfl
@[simp] theorem issueNow_drop (w : Word) : (issueNow w s).drop = s.drop := rfl
@[simp] theorem issueNow_errCode (w : Word) : (issueNow w s).errCode = 0 := rfl
@[simp] theorem issueNow_a (w : Word) : (issueNow w s).a = s.a := rfl
@[simp] theorem issueNow_b (w : Word) : (issueNow w s).b = s.b := rfl
@[simp] theorem issueNow_r (w : Word) : (issueNow w s).r = s.r := rfl
@[simp] theorem issueNow_coef (w : Word) : (issueNow w s).coef = s.coef := rfl
@[simp] theorem issueNow_px (w : Word) : (issueNow w s).px = s.px := rfl
@[simp] theorem issueNow_py (w : Word) : (issueNow w s).py = s.py := rfl
@[simp] theorem issueNow_sy (w : Word) : (issueNow w s).sy = s.sy := rfl
@[simp] theorem issueNow_host (w : Word) : (issueNow w s).host = s.host := rfl
@[simp] theorem issueNow_turns (w : Word) : (issueNow w s).turns = .engine :: s.turns := rfl
@[simp] theorem issueNow_responses (w : Word) : (issueNow w s).responses = s.responses := rfl
@[simp] theorem issueNow_draws (w : Word) : (issueNow w s).draws = s.draws := rfl

@[simp] theorem storeA_cmdReg (d : Word) : (storeA d s).cmdReg = s.cmdReg := rfl
@[simp] theorem storeA_busy (d : Word) : (storeA d s).busy = s.busy := rfl
@[simp] theorem storeA_done (d : Word) : (storeA d s).done = s.done := rfl
@[simp] theorem storeA_err (d : Word) : (storeA d s).err = s.err := rfl
@[simp] theorem storeA_drop (d : Word) : (storeA d s).drop = s.drop := rfl
@[simp] theorem storeA_errCode (d : Word) : (storeA d s).errCode = s.errCode := rfl
@[simp] theorem storeA_a (d : Word) : (storeA d s).a = lowHalf d := rfl
@[simp] theorem storeA_b (d : Word) : (storeA d s).b = s.b := rfl
@[simp] theorem storeA_r (d : Word) : (storeA d s).r = s.r := rfl
@[simp] theorem storeA_coef (d : Word) : (storeA d s).coef = s.coef := rfl
@[simp] theorem storeA_px (d : Word) : (storeA d s).px = s.px := rfl
@[simp] theorem storeA_py (d : Word) : (storeA d s).py = s.py := rfl
@[simp] theorem storeA_sy (d : Word) : (storeA d s).sy = s.sy := rfl
@[simp] theorem storeA_host (d : Word) : (storeA d s).host = s.host := rfl
@[simp] theorem storeA_turns (d : Word) : (storeA d s).turns = s.turns := rfl
@[simp] theorem storeA_responses (d : Word) : (storeA d s).responses = s.responses := rfl
@[simp] theorem storeA_draws (d : Word) : (storeA d s).draws = s.draws := rfl

@[simp] theorem storeB_cmdReg (d : Word) : (storeB d s).cmdReg = s.cmdReg := rfl
@[simp] theorem storeB_busy (d : Word) : (storeB d s).busy = s.busy := rfl
@[simp] theorem storeB_done (d : Word) : (storeB d s).done = s.done := rfl
@[simp] theorem storeB_err (d : Word) : (storeB d s).err = s.err := rfl
@[simp] theorem storeB_drop (d : Word) : (storeB d s).drop = s.drop := rfl
@[simp] theorem storeB_errCode (d : Word) : (storeB d s).errCode = s.errCode := rfl
@[simp] theorem storeB_a (d : Word) : (storeB d s).a = s.a := rfl
@[simp] theorem storeB_b (d : Word) : (storeB d s).b = lowHalf d := rfl
@[simp] theorem storeB_r (d : Word) : (storeB d s).r = s.r := rfl
@[simp] theorem storeB_coef (d : Word) : (storeB d s).coef = s.coef := rfl
@[simp] theorem storeB_px (d : Word) : (storeB d s).px = s.px := rfl
@[simp] theorem storeB_py (d : Word) : (storeB d s).py = s.py := rfl
@[simp] theorem storeB_sy (d : Word) : (storeB d s).sy = s.sy := rfl
@[simp] theorem storeB_host (d : Word) : (storeB d s).host = s.host := rfl
@[simp] theorem storeB_turns (d : Word) : (storeB d s).turns = s.turns := rfl
@[simp] theorem storeB_responses (d : Word) : (storeB d s).responses = s.responses := rfl
@[simp] theorem storeB_draws (d : Word) : (storeB d s).draws = s.draws := rfl

theorem getBank_setBank (n m : BankName) (x : Bank) :
    getBank (setBank s n x) m = if m = n then x else getBank s m := by
  cases n <;> cases m <;> rfl

@[simp] theorem setBank_cmdReg (n : BankName) (x : Bank) : (setBank s n x).cmdReg = s.cmdReg := by cases n <;> rfl
@[simp] theorem setBank_busy (n : BankName) (x : Bank) : (setBank s n x).busy = s.busy := by cases n <;> rfl
@[simp] theorem setBank_done (n : BankName) (x : Bank) : (setBank s n x).done = s.done := by cases n <;> rfl
@[simp] theorem setBank_err (n : BankName) (x : Bank) : (setBank s n x).err = s.err := by cases n <;> rfl
@[simp] theorem setBank_drop (n : BankName) (x : Bank) : (setBank s n x).drop = s.drop := by cases n <;> rfl
@[simp] theorem setBank_errCode (n : BankName) (x : Bank) : (setBank s n x).errCode = s.errCode := by cases n <;> rfl
@[simp] theorem setBank_a (n : BankName) (x : Bank) : (setBank s n x).a = s.a := by cases n <;> rfl
@[simp] theorem setBank_b (n : BankName) (x : Bank) : (setBank s n x).b = s.b := by cases n <;> rfl
@[simp] theorem setBank_r (n : BankName) (x : Bank) : (setBank s n x).r = s.r := by cases n <;> rfl
@[simp] theorem setBank_host (n : BankName) (x : Bank) : (setBank s n x).host = s.host := by cases n <;> rfl
@[simp] theorem setBank_turns (n : BankName) (x : Bank) : (setBank s n x).turns = s.turns := by cases n <;> rfl
@[simp] theorem setBank_responses (n : BankName) (x : Bank) : (setBank s n x).responses = s.responses := by cases n <;> rfl
@[simp] theorem setBank_draws (n : BankName) (x : Bank) : (setBank s n x).draws = s.draws := by cases n <;> rfl

@[simp] theorem storeEntry_cmdReg (n : BankName) (i : Nat) (d : Word) : (storeEntry n i d s).cmdReg = s.cmdReg := by
  cases n <;> rfl
@[simp] theorem storeEntry_busy (n : BankName) (i : Nat) (d : Word) : (storeEntry n i d s).busy = s.busy := by
  cases n <;> rfl
@[simp] theorem storeEntry_done (n : BankName) (i : Nat) (d : Word) : (storeEntry n i d s).done = s.done := by
  cases n <;> rfl
@[simp] theorem storeEntry_err (n : BankName) (i : Nat) (d : Word) : (storeEntry n i d s).err = s.err := by
  cases n <;> rfl
@[simp] theorem storeEntry_drop (n : BankName) (i : Nat) (d : Word) : (storeEntry n i d s).drop = s.drop := by
  cases n <;> rfl
@[simp] theorem storeEntry_errCode (n : BankName) (i : Nat) (d : Word) : (storeEntry n i d s).errCode = s.errCode := by
  cases n <;> rfl
@[simp] theorem storeEntry_a (n : BankName) (i : Nat) (d : Word) : (storeEntry n i d s).a = s.a := by
  cases n <;> rfl
@[simp] theorem storeEntry_b (n : BankName) (i : Nat) (d : Word) : (storeEntry n i d s).b = s.b := by
  cases n <;> rfl
@[simp] theorem storeEntry_r (n : BankName) (i : Nat) (d : Word) : (storeEntry n i d s).r = s.r := by
  cases n <;> rfl
@[simp] theorem storeEntry_host (n : BankName) (i : Nat) (d : Word) : (storeEntry n i d s).host = s.host := by
  cases n <;> rfl
@[simp] theorem storeEntry_turns (n : BankName) (i : Nat) (d : Word) : (storeEntry n i d s).turns = s.turns := by
  cases n <;> rfl
@[simp] theorem storeEntry_responses (n : BankName) (i : Nat) (d : Word) : (storeEntry n i d s).responses = s.responses := by
  cases n <;> rfl
@[simp] theorem storeEntry_draws (n : BankName) (i : Nat) (d : Word) : (storeEntry n i d s).draws = s.draws := by
  cases n <;> rfl

end Sys2Proof.Machine
end

