-- ==== Sys2Proof/Laws/Operands.lean ====
section
/-! SUPPORT. What reading and writing an array entry, an array of zeros and the loops over arrays do. -/

namespace Sys2Proof.Machine

/-- Reading an entry after a write: the written entry where it lies in the array, else the entry as before. -/
theorem readEntry_writeEntry (bank : Bank) (i j : Nat) (v : Half) :
    readEntry (writeEntry bank i v) j = if i = j ∧ j < Config.arrayDepth then v else readEntry bank j := by
  by_cases hj : j < 256
  · by_cases hij : i = j
    · subst hij; simp [readEntry, writeEntry, Vector.getD, hj]
    · simp [readEntry, writeEntry, Vector.getD, hj, hij]
  · simp [readEntry, writeEntry, Vector.getD, hj]

@[simp] theorem readEntry_writeEntry_same (bank : Bank) (i : Nat) (v : Half) (hi : i < Config.arrayDepth) :
    readEntry (writeEntry bank i v) i = v := by
  rw [readEntry_writeEntry, if_pos ⟨rfl, hi⟩]

theorem readEntry_writeEntry_other (bank : Bank) (i j : Nat) (v : Half) (hij : i ≠ j) :
    readEntry (writeEntry bank i v) j = readEntry bank j := by
  rw [readEntry_writeEntry, if_neg fun h => hij h.1]

@[simp] theorem readEntry_zeroBank (i : Nat) : readEntry zeroBank i = 0 := by
  by_cases hi : i < 256 <;> simp [readEntry, zeroBank, Vector.getD, hi]

theorem readEntry_of_le (bank : Bank) (i : Nat) (hi : Config.arrayDepth ≤ i) : readEntry bank i = 0 := by
  have : ¬ i < 256 := by simpa using hi
  simp [readEntry, Vector.getD, this]

/-- One canonical form: two arrays whose 256 entries read alike are equal. -/
theorem bank_eq_of_readEntry_eq (x y : Bank) (h : ∀ i < Config.arrayDepth, readEntry x i = readEntry y i) : x = y := by
  apply Vector.ext
  intro i hi
  have := h i hi
  simpa [readEntry, Vector.getD, show i < 256 from hi] using this

/-- An invariant of a loop that counts up. -/
theorem countUp_invariant {α : Type} (P : Nat → α → Prop) (f : Nat → α → α) (acc : α) (h0 : P 0 acc)
    (hf : ∀ i x, P i x → P (i + 1) (f i x)) (n : Nat) : P n (countUp n f acc) := by
  induction n with
  | zero => exact h0
  | succ n ih => exact hf n _ ih

/-- Two loops that count up with bodies equal below the bound are equal. -/
theorem countUp_congr {α : Type} (n : Nat) (f g : Nat → α → α) (acc : α) (h : ∀ i < n, f i = g i) :
    countUp n f acc = countUp n g acc := by
  induction n with
  | zero => rfl
  | succ n ih => simp only [countUp, ih fun i hi => h i (Nat.lt_succ_of_lt hi), h n (Nat.lt_succ_self n)]

/-- Two loops that count down with bodies equal below the bound are equal. -/
theorem countDown_congr {α : Type} (n : Nat) (f g : Nat → α → α) (acc : α) (h : ∀ i < n, f i = g i) :
    countDown n f acc = countDown n g acc := by
  induction n generalizing acc with
  | zero => rfl
  | succ n ih => simp only [countDown, h n (Nat.lt_succ_self n), ih _ fun i hi => h i (Nat.lt_succ_of_lt hi)]

/-- What the store of shares leaves in SY: entry i is the share at i + 1 below n, and as before from n on. -/
theorem readEntry_writeShares (y : Nat → Int) (n : Nat) (sy : Bank) (i : Nat) :
    readEntry (writeShares y n sy) i
      = if i < n ∧ i < Config.arrayDepth then toHalf (y (i + 1)) else readEntry sy i := by
  induction n with
  | zero => simp [writeShares, countUp]
  | succ n ih =>
    have step : writeShares y (n + 1) sy = writeEntry (writeShares y n sy) n (toHalf (y (n + 1))) := rfl
    rw [step, readEntry_writeEntry, ih]
    by_cases hn : n = i
    · subst hn
      by_cases hd : n < Config.arrayDepth <;> simp [hd]
    · have : (i < n + 1) = (i < n) := by simp only [eq_iff_iff]; omega
      simp [hn, this]

end Sys2Proof.Machine
end

