-- ==== Sys2Proof/Laws/Arith.lean ====
section
/-! SUPPORT. The ranges of the arithmetic, and that storing a value of [0, p) loses nothing. -/

namespace Sys2Proof.Machine

theorem modp_nonneg (a : Int) : 0 ≤ modp a := Int.emod_nonneg a (by decide)

theorem modp_lt (a : Int) : modp a < Config.prime := Int.emod_lt_of_pos a (by decide)

/-- `modp` changes nothing that is already in [0, p). -/
theorem modp_of_lt (a : Int) (h0 : 0 ≤ a) (hp : a < Config.prime) : modp a = a := Int.emod_eq_of_lt h0 hp

@[simp] theorem modp_modp (a : Int) : modp (modp a) = modp a := modp_of_lt _ (modp_nonneg a) (modp_lt a)

/-- `modp` is reduction mod p: two integers have the same `modp` exactly when p divides their difference. -/
theorem modp_eq_iff (a b : Int) : modp a = modp b ↔ ((Config.prime : Nat) : Int) ∣ a - b :=
  Int.emod_eq_emod_iff_emod_sub_eq_zero.trans Int.dvd_iff_emod_eq_zero.symm

theorem modp_add (a b : Int) : modp (modp a + modp b) = modp (a + b) := by simp [modp, trueMod]

theorem modp_sub (a b : Int) : modp (modp a - modp b) = modp (a - b) := by simp [modp, trueMod]

theorem modp_mul (a b : Int) : modp (modp a * modp b) = modp (a * b) := by simp [modp, trueMod, ← Int.mul_emod]

theorem value_nonneg (v : Half) : 0 ≤ value v := Int.natCast_nonneg _

theorem value_lt (v : Half) : value v < 65536 := by
  have := v.isLt
  simp only [value]; omega

/-- Storing an integer of [0, 65535] and reading it back gives the integer. -/
theorem value_toHalf (v : Int) (h0 : 0 ≤ v) (h1 : v < 65536) : value (toHalf v) = v := by
  obtain ⟨n, rfl⟩ := Int.eq_ofNat_of_zero_le h0
  simp only [value, toHalf, BitVec.toNat_ofInt]
  omega

/-- What is stored of a result that is an output of `modp`. -/
theorem toNat_toHalf (v : Int) (h0 : 0 ≤ v) (hp : v < Config.prime) : ((toHalf v).toNat : Int) = v :=
  value_toHalf v h0 (lt_trans hp (by decide))

/-- A loop that counts down ends in what its last turn gives; with no turn, in what it began with. -/
theorem countDown_last {α : Type} (P : α → Prop) (f : Nat → α → α) (hf : ∀ i x, P (f i x)) (n : Nat) (acc : α)
    (h0 : P acc) : P (countDown n f acc) := by
  induction n generalizing acc with
  | zero => exact h0
  | succ n ih => exact ih _ (hf n acc)

theorem horner_range (c : Nat → Int) (k : Nat) (x : Int) : 0 ≤ horner c k x ∧ horner c k x < Config.prime :=
  countDown_last (fun v => 0 ≤ v ∧ v < (Config.prime : Int)) _ (fun _ _ => ⟨modp_nonneg _, modp_lt _⟩) k 0 (by decide)

theorem inv_range (a : Int) : 0 ≤ inv a ∧ inv a < Config.prime := ⟨modp_nonneg _, modp_lt _⟩

theorem lagrange0_range (px py : Nat → Int) (m : Nat) :
    0 ≤ lagrange0 px py m ∧ lagrange0 px py m < Config.prime :=
  countUp_invariant (fun _ v => 0 ≤ v ∧ v < (Config.prime : Int)) _ 0 (by decide)
    (fun _ _ _ => ⟨modp_nonneg _, modp_lt _⟩) m

/-- The duplicate check finds a pair exactly when there is one (R92). -/
theorem hasDuplicateX_iff (px : Nat → Int) (m : Nat) :
    hasDuplicateX px m = true ↔ ∃ i j, i < j ∧ j < m ∧ modp (px i) = modp (px j) := by
  simp only [hasDuplicateX, List.any_eq_true, List.mem_range, decide_eq_true_eq]
  constructor
  · rintro ⟨j, hj, i, hi, h⟩; exact ⟨i, j, hi, hj, h⟩
  · rintro ⟨i, j, hi, hj, h⟩; exact ⟨j, hj, i, hi, h⟩

end Sys2Proof.Machine
end

