-- ==== Sys2Proof/Laws/Bus.lean ====
section
/-! SUPPORT. Everything a bus read and a bus write can do, said once for each. -/

namespace Sys2Proof.Machine

/-- A read changes nothing, or it draws one free value while BUSY = 1 (R40). -/
theorem busRead_cases (addr : Offset) (s t : State) (x : Response) (h : busRead addr s = (x, t)) :
    t = s ∨ s.busy = true ∧ x = .okay (Config.freeRead s.draws) ∧ t = { s with draws := s.draws + 1 } := by
  unfold busRead at h
  split at h
  · cases h; exact .inl rfl
  · cases h; exact .inl rfl
  · unfold readLoc at h
    split at h
    · rename_i hb
      simp only [Bool.and_eq_true] at hb
      cases h; exact .inr ⟨hb.1, rfl, rfl⟩
    · cases h; exact .inl rfl

/-- The offsets whose writes are ignored (R41, R42, R44). -/
def Ignores (addr : Offset) : Prop :=
  targetOf addr = .misaligned ∨ targetOf addr = .reserved ∨ targetOf addr = .loc .r ∨ targetOf addr = .loc .prime ∨
    ∃ i, targetOf addr = .loc (.entry .sy i)

/-- What a write can do to the state, and where (R41): nothing, the accept of a command, a STATUS write, a discard, or one store. -/
inductive WriteEffect (addr : Offset) (data : Word) (s : State) : State → Prop where
  | ignored (hl : Ignores addr) : WriteEffect addr data s s
  | accepted (hl : targetOf addr = .loc .cmd) (hb : s.busy = false) (he : s.err = false) :
      WriteEffect addr data s (accept data s)
  | status (hl : targetOf addr = .loc .status) : WriteEffect addr data s (writeStatus data s)
  | discarded (hl : ¬ Ignores addr) (hs : targetOf addr ≠ .loc .status)
      (h : s.busy = true ∨ targetOf addr = .loc .cmd ∧ s.err = true) : WriteEffect addr data s (setDrop s)
  | storeA (hl : targetOf addr = .loc .a) (hb : s.busy = false) : WriteEffect addr data s (storeA data s)
  | storeB (hl : targetOf addr = .loc .b) (hb : s.busy = false) : WriteEffect addr data s (storeB data s)
  | storeBank (bank : BankName) (hn : bank ≠ .sy) (i : Fin Config.arrayDepth)
      (hl : targetOf addr = .loc (.entry bank i)) (hb : s.busy = false) :
      WriteEffect addr data s (storeEntry bank i.val data s)

/-- A write to a location that is discarded while BUSY = 1: the discard, or the store. -/
theorem writeData_effect {addr : Offset} {data : Word} {store : State → State} {s : State} (hl : ¬ Ignores addr)
    (hs : targetOf addr ≠ .loc .status) (h : s.busy = false → WriteEffect addr data s (store s)) :
    WriteEffect addr data s (writeData store s) := by
  cases hb : s.busy with
  | true => simpa only [writeData, hb, if_true] using WriteEffect.discarded hl hs (.inl hb)
  | false => simpa only [writeData, hb, Bool.false_eq_true, if_false] using h hb

theorem writeLoc_effect (addr : Offset) (l : Loc) (data : Word) (s : State) (h : targetOf addr = .loc l) :
    WriteEffect addr data s (writeLoc l data s) := by
  cases l with
  | cmd =>
    have hi : ¬ Ignores addr := by simp [Ignores, h]
    have hs : targetOf addr ≠ .loc .status := by simp [h]
    simp only [writeLoc, writeCmd]
    split
    · rename_i hd
      rw [Bool.or_eq_true] at hd
      exact .discarded hi hs (hd.imp id fun he => ⟨h, he⟩)
    · rename_i hd
      simp only [Bool.or_eq_true, not_or, Bool.not_eq_true] at hd
      exact .accepted h hd.1 hd.2
  | status => exact .status h
  | a => exact writeData_effect (by simp [Ignores, h]) (by simp [h]) (.storeA h)
  | b => exact writeData_effect (by simp [Ignores, h]) (by simp [h]) (.storeB h)
  | r => exact .ignored (by simp [Ignores, h])
  | prime => exact .ignored (by simp [Ignores, h])
  | entry bank i =>
    cases bank with
    | coef => exact writeData_effect (by simp [Ignores, h]) (by simp [h]) (.storeBank .coef (by decide) i h)
    | px => exact writeData_effect (by simp [Ignores, h]) (by simp [h]) (.storeBank .px (by decide) i h)
    | py => exact writeData_effect (by simp [Ignores, h]) (by simp [h]) (.storeBank .py (by decide) i h)
    | sy => exact .ignored (by simp [Ignores, h])

/-- Every bus write has one of the effects of R41. -/
theorem busWrite_effect (addr : Offset) (data : Word) (s : State) :
    WriteEffect addr data s (busWrite addr data s).2 := by
  unfold busWrite
  split
  · exact .ignored (.inl ‹_›)
  · exact .ignored (.inr (.inl ‹_›))
  · exact writeLoc_effect addr _ data s ‹_›

/-- What a write did, from its answer. -/
theorem busWrite_cases {addr : Offset} {data : Word} {s t : State} {x : Response} (h : busWrite addr data s = (x, t)) :
    WriteEffect addr data s t := by
  have := busWrite_effect addr data s
  rwa [h] at this

end Sys2Proof.Machine
end

