-- ==== Sys2Proof/Laws/Exec.lean ====
section
/-! SUPPORT. Everything a command can do, said once for each shape of command and once for all of them. -/

namespace Sys2Proof.Machine

/-- A success of a command that writes R with a result of [0, p): the result is read back whole, and nothing else but STATUS moves
(R71). -/
theorem succeedWith_spec (v : Int) (s : State) (h0 : 0 ≤ v) (hp : v < Config.prime) :
    ∃ t, succeedWith v s = .next t ∧ (t.r.toNat : Int) = v ∧ Succeeded s t ∧ KeepsAllButR s t :=
  ⟨_, rfl, toNat_toHalf v h0 hp, ⟨rfl, rfl, rfl, rfl, rfl⟩, ⟨rfl, rfl, rfl, rfl, rfl⟩, rfl, rfl, rfl, rfl, rfl, rfl⟩

/-- A failure of a command moves nothing but STATUS (R99). -/
theorem failWith_spec (e : ErrorCode) (s : State) :
    ∃ t, failWith e s = .next t ∧ Failed e s t ∧ KeepsAllData s t :=
  ⟨_, rfl, ⟨rfl, rfl, rfl, rfl, rfl⟩, ⟨⟨rfl, rfl, rfl, rfl, rfl⟩, rfl, rfl, rfl, rfl, rfl, rfl⟩, rfl⟩

/-- What a command can do (R98): succeed with a result in R, fail and write nothing, do nothing (NOP), split, fail to split, or
wipe. -/
inductive ExecEffect (s : State) : Instr → State → Prop where
  | nop : ExecEffect s .nop (completeOk s)
  | result (i : Instr) (hi : writesR i = true) (v : Int) (h0 : 0 ≤ v) (hp : v < Config.prime) :
      ExecEffect s i (completeOk (setR v s))
  | failure (i : Instr) (hi : writesR i = true) (e : ErrorCode) : ExecEffect s i (raiseError e s)
  | splitDone (k n : Nat) (hc : splitError k n s = none) :
      ExecEffect s (.split k n) (completeOk (wipeCoef (storeShares k n s)))
  | splitFailed (k n : Nat) (e : ErrorCode) (hc : splitError k n s = some e) :
      ExecEffect s (.split k n) (raiseError e (wipeCoef s))
  | wipe : ExecEffect s .wipe (completeOk (wipeData s))

/-- Every command answers a next state, and its effect is one of those of R98. -/
theorem exec_effect (i : Instr) (s : State) : ∃ t, exec i s = .next t ∧ ExecEffect s i t := by
  cases i with
  | nop => exact ⟨_, rfl, .nop⟩
  | add => exact ⟨_, rfl, .result .add rfl _ (modp_nonneg _) (modp_lt _)⟩
  | sub => exact ⟨_, rfl, .result .sub rfl _ (modp_nonneg _) (modp_lt _)⟩
  | mul => exact ⟨_, rfl, .result .mul rfl _ (modp_nonneg _) (modp_lt _)⟩
  | inv =>
    by_cases h : modp (operandA s) = 0
    · exact ⟨_, if_pos h, .failure .inv rfl _⟩
    · exact ⟨_, if_neg h, .result .inv rfl _ (inv_range _).1 (inv_range _).2⟩
  | div =>
    by_cases h : modp (operandB s) = 0
    · exact ⟨_, if_pos h, .failure .div rfl _⟩
    · exact ⟨_, if_neg h, .result .div rfl _ (modp_nonneg _) (modp_lt _)⟩
  | eval k =>
    by_cases h : k = 0
    · exact ⟨_, if_pos h, .failure (.eval k) rfl _⟩
    · exact ⟨_, if_neg h, .result (.eval k) rfl _ (horner_range _ _ _).1 (horner_range _ _ _).2⟩
  | split k n =>
    cases h : splitError k n s with
    | none => exact ⟨_, by simp only [exec, execSplit, h], .splitDone k n h⟩
    | some e => exact ⟨_, by simp only [exec, execSplit, h], .splitFailed k n e h⟩
  | interp m k =>
    cases h : interpError m k s with
    | none =>
      exact ⟨completeOk (setR (lagrange0 (pxAt s) (pyAt s) m) s), by simp only [exec, execInterp, h, succeedWith],
        .result (.interp m k) rfl _ (lagrange0_range _ _ _).1 (lagrange0_range _ _ _).2⟩
    | some e => exact ⟨raiseError e s, by simp only [exec, execInterp, h, failWith], .failure (.interp m k) rfl e⟩
  | wipe => exact ⟨_, rfl, .wipe⟩

/-- What a command did, from its answer. -/
theorem execEffect_of_exec {i : Instr} {s t : State} (h : exec i s = .next t) : ExecEffect s i t := by
  obtain ⟨u, hu, he⟩ := exec_effect i s
  rw [hu] at h
  cases h
  exact he

/-- The illegal command fails and writes nothing (R97). -/
theorem execIllegal_spec (s : State) :
    ∃ t, execIllegal s = .next t ∧ Failed .illegalCommand s t ∧ KeepsAllData s t := failWith_spec .illegalCommand s

end Sys2Proof.Machine
end

