-- ==== Sys2Proof/Laws/Step.lean ====
section
/-! SUPPORT. Everything one step can do. -/

namespace Sys2Proof.Machine

/-- The state in which the agent whose turn it is acts: the order of turns has lost its first entry, if it had one. -/
def afterTurn (s : State) : State := { s with turns := s.turns.tail }

@[simp] theorem afterTurn_cmdReg (s : State) : (afterTurn s).cmdReg = s.cmdReg := rfl
@[simp] theorem afterTurn_busy (s : State) : (afterTurn s).busy = s.busy := rfl
@[simp] theorem afterTurn_done (s : State) : (afterTurn s).done = s.done := rfl
@[simp] theorem afterTurn_err (s : State) : (afterTurn s).err = s.err := rfl
@[simp] theorem afterTurn_drop (s : State) : (afterTurn s).drop = s.drop := rfl
@[simp] theorem afterTurn_errCode (s : State) : (afterTurn s).errCode = s.errCode := rfl
@[simp] theorem afterTurn_a (s : State) : (afterTurn s).a = s.a := rfl
@[simp] theorem afterTurn_b (s : State) : (afterTurn s).b = s.b := rfl
@[simp] theorem afterTurn_r (s : State) : (afterTurn s).r = s.r := rfl
@[simp] theorem afterTurn_coef (s : State) : (afterTurn s).coef = s.coef := rfl
@[simp] theorem afterTurn_px (s : State) : (afterTurn s).px = s.px := rfl
@[simp] theorem afterTurn_py (s : State) : (afterTurn s).py = s.py := rfl
@[simp] theorem afterTurn_sy (s : State) : (afterTurn s).sy = s.sy := rfl
@[simp] theorem afterTurn_host (s : State) : (afterTurn s).host = s.host := rfl
@[simp] theorem afterTurn_turns (s : State) : (afterTurn s).turns = s.turns.tail := rfl
@[simp] theorem afterTurn_responses (s : State) : (afterTurn s).responses = s.responses := rfl
@[simp] theorem afterTurn_draws (s : State) : (afterTurn s).draws = s.draws := rfl

/-- What a step does in the turn that is taken (R9): the host is idle, the host reads (or polls), the host writes, the Engine is not
enabled, the Engine completes a command, the Engine completes an illegal word, or a reset occurs. -/
inductive StepEffect (s : State) : State → Prop where
  | hostIdle (ht : turnOf s = .host) (hh : s.host = []) : StepEffect s (afterTurn s)
  | hostRead (ht : turnOf s = .host) (op : HostOp) (rest : List HostOp) (hh : s.host = op :: rest) (addr : Offset)
      (hop : op = .read addr ∨ op = .poll ∧ addr = offsetOf .status) (x : Response) (t : State)
      (hr : busRead addr (afterTurn s) = (x, t)) :
      StepEffect s (respond x (hostContinues (hostAfter op rest x) t))
  | hostWrite (ht : turnOf s = .host) (addr : Offset) (data : Word) (rest : List HostOp)
      (hh : s.host = .write addr data :: rest) (x : Response) (t : State)
      (hw : busWrite addr data (afterTurn s) = (x, t)) : StepEffect s (respond x (hostContinues rest t))
  | engineIdle (ht : turnOf s = .engine) (hb : s.busy = false) : StepEffect s (afterTurn s)
  | completed (ht : turnOf s = .engine) (hb : s.busy = true) (i : Instr) (hd : decode s.cmdReg = .ok i) (t : State)
      (he : ExecEffect (afterTurn s) i t) : StepEffect s t
  | illegal (ht : turnOf s = .engine) (hb : s.busy = true) (e : DecodeError) (hd : decode s.cmdReg = .error e) :
      StepEffect s (raiseError .illegalCommand (afterTurn s))
  | reset (ht : turnOf s = .reset) : StepEffect s (resetBlock (afterTurn s))

/-- A step takes the turn `turnOf` names, in the state `afterTurn`. -/
theorem step_eq_takeTurn (s : State) : step s = takeTurn (turnOf s) (afterTurn s) := by
  obtain ⟨cmdReg, busy, done, err, drop, errCode, a, b, r, coef, px, py, sy, host, turns, responses, draws⟩ := s
  cases turns <;> rfl

theorem hostTurn_effect (s : State) (ht : turnOf s = .host) : StepEffect s (hostTurn (afterTurn s)) := by
  cases hh : s.host with
  | nil =>
    have : hostTurn (afterTurn s) = afterTurn s := by simp only [hostTurn, afterTurn, hh]
    rw [this]; exact .hostIdle ht hh
  | cons op rest =>
    have hs : (afterTurn s).host = op :: rest := hh
    have hturn : hostTurn (afterTurn s) = respond (transact op (afterTurn s)).1
        (hostContinues (hostAfter op rest (transact op (afterTurn s)).1) (transact op (afterTurn s)).2) := by
      simp only [hostTurn, hs]
    rw [hturn]
    cases op with
    | read addr =>
      exact .hostRead ht _ rest hh addr (.inl rfl) (busRead addr (afterTurn s)).1 (busRead addr (afterTurn s)).2 rfl
    | write addr data =>
      exact .hostWrite ht addr data rest hh (busWrite addr data (afterTurn s)).1 (busWrite addr data (afterTurn s)).2 rfl
    | poll =>
      exact .hostRead ht _ rest hh (offsetOf .status) (.inr ⟨rfl, rfl⟩) (busRead (offsetOf .status) (afterTurn s)).1
        (busRead (offsetOf .status) (afterTurn s)).2 rfl

/-- A step that answers a next state did one of these things. -/
theorem step_cases {s t : State} (h : step s = .next t) : StepEffect s t := by
  rw [step_eq_takeTurn] at h
  cases ht : turnOf s with
  | host =>
    rw [ht] at h
    cases h
    exact hostTurn_effect s ht
  | engine =>
    rw [ht] at h
    simp only [takeTurn, engineTurn] at h
    split at h
    · rename_i hb
      unfold complete at h
      split at h
      · rename_i i hd
        exact .completed ht hb i hd t (execEffect_of_exec h)
      · rename_i e hd
        cases h
        exact .illegal ht hb e hd
    · rename_i hb
      cases h
      exact .engineIdle ht (Bool.eq_false_of_not_eq_true hb)
  | reset =>
    rw [ht] at h
    cases h
    exact .reset ht

/-- The step in which the host writes: the bus write's effect, the response given, the host's transaction done. -/
theorem step_of_hostWrites {s t : State} {addr : Offset} {data : Word} (h : step s = .next t)
    (hw : HostWrites s addr data) :
    ∃ x u rest, busWrite addr data (afterTurn s) = (x, u) ∧ t = respond x (hostContinues rest u) := by
  obtain ⟨ht, hh⟩ := hw
  cases hs : s.host with
  | nil => simp [hs] at hh
  | cons op rest =>
    obtain rfl : op = .write addr data := by simpa [hs] using hh
    rw [step_eq_takeTurn, ht] at h
    cases h
    exact ⟨(busWrite addr data (afterTurn s)).1, (busWrite addr data (afterTurn s)).2, rest, rfl,
      by simp only [hostTurn, afterTurn_host, hs, transact, hostAfter]⟩

/-- The host's next transaction, if it is a write, is what `HostWrites` says. -/
theorem hostWrites_of_head {s : State} {addr : Offset} {data : Word} {rest : List HostOp} (ht : turnOf s = .host)
    (hh : s.host = .write addr data :: rest) : HostWrites s addr data :=
  ⟨ht, by rw [hh]; rfl⟩

/-- A run of no steps stays where it is. -/
@[simp] theorem core_run_zero (s : State) : core.run 0 s = .next s := rfl

/-- A run goes on from the state its first step answers. -/
theorem core_run_succ {s t : State} (n : Nat) (h : step s = .next t) : core.run (n + 1) s = core.run n t := by
  have hs : core.step s = .next t := h
  simp only [Host.Core.run, hs]

end Sys2Proof.Machine
end

