-- ==== Sys2Proof/Laws/PerInstr.lean ====
section
/-! SUPPORT. One family of statements about every command as syntax: its command word selects its own row of the opcode table. -/

namespace Sys2Proof.Laws.MatchesTable

/-- The word of a command that a command word can carry selects the command's row of R57: `(w & mask) = match`. -/
def Statement (i : Instr) : Prop :=
  i.WellFormed → (tableRow i).selects (encode i) = true

/-- The mask of EVAL keeps OP, and of the rest only bits that are 0. -/
theorem mask_p1 (x : BitVec 8) (op : BitVec 4) :
    (0#8 ++ 0#8 ++ x ++ 0#4 ++ op : BitVec (8 + 8 + 8 + 4 + 4)) &&& 0xFFFF00FF = op.setWidth 32 := by
  apply BitVec.eq_of_getLsbD_eq
  intro i hi
  simp only [BitVec.getLsbD_and, BitVec.getLsbD_append, BitVec.getLsbD_setWidth]
  interval_cases i <;> simp

/-- The mask of SPLIT and INTERP keeps OP, and of the rest only bits that are 0. -/
theorem mask_p1_p2 (y x : BitVec 8) (op : BitVec 4) :
    (0#8 ++ y ++ x ++ 0#4 ++ op : BitVec (8 + 8 + 8 + 4 + 4)) &&& 0xFF0000FF = op.setWidth 32 := by
  apply BitVec.eq_of_getLsbD_eq
  intro i hi
  simp only [BitVec.getLsbD_and, BitVec.getLsbD_append, BitVec.getLsbD_setWidth]
  interval_cases i <;> simp

theorem nop : Statement .nop := fun _ => by decide
theorem add : Statement .add := fun _ => by decide
theorem sub : Statement .sub := fun _ => by decide
theorem mul : Statement .mul := fun _ => by decide
theorem inv : Statement .inv := fun _ => by decide
theorem div : Statement .div := fun _ => by decide
theorem eval (k : Nat) : Statement (.eval k) := fun _ =>
  decide_eq_true (mask_p1 (paramField (some k)) 0x6)
theorem split (k n : Nat) : Statement (.split k n) := fun _ =>
  decide_eq_true (mask_p1_p2 (paramField (some n)) (paramField (some k)) 0x7)
theorem interp (m k : Nat) : Statement (.interp m k) := fun _ =>
  decide_eq_true (mask_p1_p2 (paramField (some k)) (paramField (some m)) 0x8)
theorem wipe : Statement .wipe := fun _ => by decide

end Sys2Proof.Laws.MatchesTable
end

