-- ==== Sys2Proof/Tests/Slice0.lean ====
section
/-! SUPPORT. Tests. Every expected value comes from spec/: 95_test_vectors.md or the rule named beside it. Then the witnesses: for
every statement of the obligations that has hypotheses, concrete states and operands that meet them. -/

namespace Sys2Proof.Tests

open Sys2Proof.Machine

-- One theorem after the other: checked side by side, so many kernel evaluations need more threads than the memory limit allows.
set_option Elab.async false

/-- An array whose first entries are `vs`. -/
def bank (vs : List Nat) : Bank :=
  vs.zipIdx.foldl (fun b p => writeEntry b p.2 (BitVec.ofNat 16 p.1)) zeroBank

/-- The state after a step, where there is one. -/
def after (s : State) : State :=
  match step s with
  | .next t => t
  | .fault _ => s
  | .refused _ => s

/-- Does the step answer a next state? -/
def answers (s : State) : Bool :=
  match step s with
  | .next _ => true
  | .fault _ => false
  | .refused _ => false

theorem step_after {s : State} (h : answers s = true) : step s = .next (after s) := by
  unfold answers at h
  unfold after
  split at h <;> simp_all

/-- The state after the command word `w` was accepted and has completed. -/
def ran (w : Nat) (s : State) : State := after (s.withFetchWord 32 w)

/-- Reset, then A and B. -/
def withAB (a b : Nat) : State := { State.reset with a := BitVec.ofNat 16 a, b := BitVec.ofNat 16 b, r := 77 }

/-- Reset, then A and COEF. -/
def withCoef (vs : List Nat) (a : Nat) : State :=
  { State.reset with a := BitVec.ofNat 16 a, coef := bank vs, sy := bank [9, 9, 9, 9, 9, 9, 9, 9], r := 77 }

/-- Reset, then PX and PY. -/
def withPoints (xs ys : List Nat) : State := { State.reset with px := bank xs, py := bank ys, r := 77 }

/-- R and STATUS after a command. -/
def rs (s : State) : Nat × Nat := (s.r.toNat, (statusWord s).toNat)

/-- The first `n` entries of an array. -/
def firsts (n : Nat) (b : Bank) : List Nat := (List.range n).map fun i => (readEntry b i).toNat

/-- The block with transactions and an order of turns, from reset. -/
def hosted (host : List HostOp) (turns : List Turn) : State := { State.reset with host := host, turns := turns }

/-- A block with the command word `w` pending. -/
def pending (w : Word) (host : List HostOp) (turns : List Turn) : State :=
  { hosted host turns with cmdReg := w, busy := true }

/-- A block that reports DUPLICATE_X for the word `w`. -/
def failed (w : Word) (host : List HostOp) (turns : List Turn) : State :=
  { hosted host turns with cmdReg := w, err := true, errCode := 4 }

/-! WellFormed: each check refuses an ill-formed command (R55, R63) -/

theorem test_wellformed_counts : (Instr.eval 255).WellFormed ∧ (Instr.split 255 255).WellFormed ∧
    (Instr.interp 0 255).WellFormed ∧ Instr.nop.WellFormed := by decide
theorem test_ill_formed_eval : ¬ (Instr.eval 256).WellFormed := by decide
theorem test_ill_formed_split_k : ¬ (Instr.split 256 1).WellFormed := by decide
theorem test_ill_formed_split_n : ¬ (Instr.split 1 256).WellFormed := by decide
theorem test_ill_formed_interp_m : ¬ (Instr.interp 256 1).WellFormed := by decide
theorem test_ill_formed_interp_k : ¬ (Instr.interp 1 256).WellFormed := by decide

/-! Decoding: words written out from the bit patterns of R57, RSV1 | P2 | P1 | RSV0 | OP -/

theorem test_decode_nop : decode 0b00000000_00000000_00000000_0000_0000#32 = .ok .nop := by decide
theorem test_decode_add : decode 0b00000000_00000000_00000000_0000_0001#32 = .ok .add := by decide
theorem test_decode_sub : decode 0b00000000_00000000_00000000_0000_0010#32 = .ok .sub := by decide
theorem test_decode_mul : decode 0b00000000_00000000_00000000_0000_0011#32 = .ok .mul := by decide
theorem test_decode_inv : decode 0b00000000_00000000_00000000_0000_0100#32 = .ok .inv := by decide
theorem test_decode_div : decode 0b00000000_00000000_00000000_0000_0101#32 = .ok .div := by decide
theorem test_decode_eval : decode 0b00000000_00000000_11111111_0000_0110#32 = .ok (.eval 255) := by decide
theorem test_decode_split : decode 0b00000000_00000101_00000011_0000_0111#32 = .ok (.split 3 5) := by decide
theorem test_decode_interp : decode 0b00000000_00000011_00000101_0000_1000#32 = .ok (.interp 5 3) := by decide
theorem test_decode_wipe : decode 0b00000000_00000000_00000000_0000_1001#32 = .ok .wipe := by decide

/-- The illegal words of 95_test_vectors.md section 2.9, and each reserved OP (R54). -/
theorem test_decode_illegal :
    decode 0x0000000A = .error .reservedOp ∧ decode 0x0000000B = .error .reservedOp ∧ decode 0x0000000C = .error .reservedOp ∧
    decode 0x0000000D = .error .reservedOp ∧ decode 0x0000000E = .error .reservedOp ∧ decode 0x0000000F = .error .reservedOp ∧
    decode 0x00000010 = .error .rsv0NotZero ∧ decode 0x00000019 = .error .rsv0NotZero ∧
    decode 0x01000000 = .error .rsv1NotZero ∧ decode 0x80000000 = .error .rsv1NotZero ∧
    decode 0x00000101 = .error .unusedFieldNotZero ∧ decode 0x00010001 = .error .unusedFieldNotZero ∧
    decode 0x00010306 = .error .unusedFieldNotZero ∧ decode 0x01050307 = .error .rsv1NotZero := by decide

/-- R83, R85, R93 and 95_test_vectors.md section 2: the words of EVAL 3, SPLIT 3, 5 and INTERP 3, 2. -/
theorem test_encode_counts : encode (.eval 3) = 0x00000306 ∧ encode (.split 3 5) = 0x00050307 ∧
    encode (.interp 3 2) = 0x00020308 := by decide

theorem test_decode_table_word : decodeTableWord 32 0x00050307 = some (.split 3 5) ∧ decodeTableWord 32 0x0000000A = none := by
  decide

/-! The commands: 95_test_vectors.md sections 2.1 to 2.9 -/

theorem test_add : rs (ran 0x1 (withAB 65520 1)) = (0, 2) ∧ rs (ran 0x1 (withAB 65535 65535)) = (28, 2) := by decide +kernel
theorem test_sub : rs (ran 0x2 (withAB 0 1)) = (65520, 2) ∧ rs (ran 0x2 (withAB 0 65535)) = (65507, 2) := by decide +kernel
theorem test_mul : rs (ran 0x3 (withAB 40000 50000)) = (36996, 2) ∧ rs (ran 0x3 (withAB 65535 65535)) = (196, 2) := by
  decide +kernel
theorem test_inv : rs (ran 0x4 (withAB 3 0)) = (43681, 2) ∧ rs (ran 0x4 (withAB 12345 0)) = (22525, 2) ∧
    rs (ran 0x4 (withAB 65535 0)) = (60841, 2) := by decide +kernel
theorem test_inv_not_invertible : rs (ran 0x4 (withAB 0 0)) = (77, 0x2504) ∧ rs (ran 0x4 (withAB 65521 0)) = (77, 0x2504) := by
  decide +kernel
theorem test_div : rs (ran 0x5 (withAB 200 65520)) = (65321, 2) ∧ rs (ran 0x5 (withAB 20 3)) = (21847, 2) := by decide +kernel
theorem test_div_not_invertible : rs (ran 0x5 (withAB 5 65521)) = (77, 0x2504) ∧ rs (ran 0x5 (withAB 0 0)) = (77, 0x2504) := by
  decide +kernel
theorem test_eval : rs (ran 0x306 (withCoef [200, 7, 3] 65535)) = (886, 2) ∧
    rs (ran 0x306 (withCoef [65, 40000, 65000] 5)) = (55998, 2) := by decide +kernel
theorem test_eval_zero_count : rs (ran 0x006 (withCoef [200, 7, 3] 2)) = (77, 0x1104) ∧
    firsts 3 (ran 0x006 (withCoef [200, 7, 3] 2)).coef = [200, 7, 3] := by decide +kernel
theorem test_split : rs (ran 0x00050307 (withCoef [200, 7, 3] 0)) = (77, 2) ∧
    firsts 7 (ran 0x00050307 (withCoef [200, 7, 3] 0)).sy = [210, 226, 248, 276, 310, 9, 9] ∧
    firsts 3 (ran 0x00050307 (withCoef [200, 7, 3] 0)).coef = [0, 0, 0] := by decide +kernel
theorem test_split_errors : rs (ran 0x00030407 (withCoef [65535] 0)) = (77, 0x1204) ∧
    rs (ran 0x00030207 (withCoef [65521, 7] 0)) = (77, 0x2304) ∧ rs (ran 0x00000007 (withCoef [200] 0)) = (77, 0x1104) ∧
    firsts 2 (ran 0x00030207 (withCoef [65521, 7] 0)).coef = [0, 0] ∧
    firsts 2 (ran 0x00030207 (withCoef [65521, 7] 0)).sy = [9, 9] := by decide +kernel
theorem test_interp : rs (ran 0x00030308 (withPoints [65522, 3, 5] [210, 248, 310])) = (200, 2) ∧
    rs (ran 0x00020208 (withPoints [0, 1] [42, 99])) = (42, 2) ∧ rs (ran 0x00010108 (withPoints [7] [65530])) = (9, 2) := by
  decide +kernel
theorem test_interp_errors : rs (ran 0x00020208 (withPoints [1, 65522] [210, 248])) = (77, 0x2404) ∧
    rs (ran 0x00030208 (withPoints [1, 1] [1, 1])) = (77, 0x2604) ∧ rs (ran 0x00030008 (withPoints [1, 1] [1, 1])) = (77, 0x1104) := by
  decide +kernel
theorem test_nop : rs (ran 0x0 (withAB 5 6)) = (77, 2) ∧ (ran 0x0 (withAB 5 6)).a = 5 := by decide +kernel
theorem test_wipe : (statusWord (ran 0x9 { withPoints [1] [2] with drop := true })).toNat = 0xA ∧
    firsts 1 (ran 0x9 (withPoints [1] [2])).px = [0] ∧ (ran 0x9 (withPoints [1] [2])).cmdReg = 9 ∧
    (ran 0x9 (withPoints [1] [2])).r = 0 := by decide +kernel
/-- Section 2.7: an OP of 7 with a reserved bit set is no SPLIT, and COEF is not wiped. -/
theorem test_illegal : rs (ran 0x01050307 (withCoef [200, 7, 3] 0)) = (77, 0x1704) ∧
    firsts 3 (ran 0x01050307 (withCoef [200, 7, 3] 0)).coef = [200, 7, 3] ∧
    (ran 0x01050307 (withCoef [200, 7, 3] 0)).cmdReg = 0x01050307 := by decide +kernel

/-- The raw Bézout coefficients of section 2.4. -/
theorem test_extended_gcd : extendedGcd 12345 65521 = (22525, -4244) ∧ extendedGcd 255 65521 = (-23382, 91) := by decide +kernel

/-! The bus and STATUS: 95_test_vectors.md section 2.10 -/

theorem test_bus_misaligned : busRead 0x0002 State.reset = (.error, State.reset) := rfl
theorem test_bus_reserved : (busRead 0x0018 State.reset).1 = .okay 0 ∧ (busRead 0x1400 State.reset).1 = .okay 0 ∧
    (busRead 0x1FFC State.reset).1 = .okay 0 := by decide
theorem test_bus_write_a : (busRead 0x0008 (busWrite 0x0008 0xABCD1234 State.reset).2).1 = .okay 0x1234 := by decide
theorem test_bus_array_ends : targetOf 0x0400 = .loc (.entry .coef 0) ∧ targetOf 0x07FC = .loc (.entry .coef 255) ∧
    targetOf 0x0800 = .loc (.entry .px 0) ∧ targetOf 0x0BFC = .loc (.entry .px 255) ∧ targetOf 0x0C00 = .loc (.entry .py 0) ∧
    targetOf 0x0FFC = .loc (.entry .py 255) ∧ targetOf 0x1000 = .loc (.entry .sy 0) ∧ targetOf 0x13FC = .loc (.entry .sy 255) ∧
    targetOf 0x03FC = .reserved ∧ targetOf 0x1400 = .reserved := by decide
/-- Rows 13, 16, 17 and 18: a write of A while BUSY is discarded, a STATUS write is not. -/
theorem test_bus_busy :
    let s13 := (busWrite 0x0000 0x1 (withAB 4660 0)).2
    let s16 := (busWrite 0x0008 0x5 s13).2
    let s17 := (busWrite 0x0004 0x1 s16).2
    let s18 := (busWrite 0x0004 0xFFFFFFFF s17).2
    statusWord s13 = 0x1 ∧ s16.a = 4660 ∧ statusWord s16 = 0x9 ∧ statusWord s17 = 0x9 ∧ statusWord s18 = 0x1 := by decide +kernel
/-- Program P3, rows 9 to 12: a NOP written over an error is lost, and the acknowledge clears the record. -/
theorem test_acknowledge :
    let s9 := (busWrite 0x0000 0x0 (failed 0x00020208 [] [])).2
    statusWord s9 = 0x240C ∧ s9.cmdReg = 0x00020208 ∧ statusWord (busWrite 0x0004 0xE s9).2 = 0 := by decide +kernel
/-- Section 2.11: a reset while SPLIT 3, 5 is pending. -/
theorem test_reset_event :
    let s := after { pending 0x00050307 [] [.reset] with coef := bank [200, 7, 3] }
    statusWord s = 0 ∧ s.cmdReg = 0 ∧ firsts 3 s.coef = [0, 0, 0] ∧ firsts 2 s.sy = [0, 0] := by decide +kernel
/-- R65: a poll that sees BUSY = 1 is repeated, one that sees BUSY = 0 ends. -/
theorem test_poll : (after (pending 0x0 [.poll] [.host])).host = [.poll] ∧ (after (hosted [.poll] [.host])).host = [] := by
  decide +kernel

/-! Host software: 95_test_vectors.md E2 and E5, and 30_encoding.md R63 to R65 -/

/-- The share file of x = 1 in E2. -/
def fileE2 : List Byte := [0x30, 0x33, 0x30, 0x31, 0x04, 0x0c, 0xb9, 0x17, 0x78, 0x23, 0x30, 0x2f, 0xeb, 0x3a]

theorem test_share_write : writeShare .lower ⟨3, 1, [3076, 6073, 9080, 12080, 15083]⟩ = fileE2 := by decide
theorem test_share_read : readShare fileE2 = .ok ⟨3, 1, [3076, 6073, 9080, 12080, 15083]⟩ ∧
    readShares [fileE2, fileE2.take 12] = .error .unequalLengths := by decide
/-- R69 and D41: both letter cases are read; a header x of 00 and an odd payload are rejected. -/
theorem test_share_header : readShare [0x46, 0x66, 0x30, 0x31] = .ok ⟨0xFF, 1, []⟩ ∧
    readShare [0x30, 0x33, 0x30, 0x30] = .error .xZero ∧ readShare [0x30, 0x33, 0x30, 0x31, 0x04] = .error .oddPayload ∧
    readShare [0x30, 0x67, 0x30, 0x31] = .error .headerNotHex := by decide
/-- The transactions of P5 that reconstruct one byte of E2, and log entry 21: nothing is issued for 256 points or a threshold of 256. -/
theorem test_reconstruct_script :
    reconstructByteScript [(2, 10086), (4, 36124)] 2 = some [.write 0x0800 2, .write 0x0804 4, .write 0x0C00 0x2766,
      .write 0x0C04 0x8D1C, .write 0x0000 0x00020208, .poll, .read 0x0010] ∧
    reconstructByteScript (List.replicate 256 (1, 1)) 3 = none ∧ reconstructByteScript [(1, 1)] 256 = none ∧
    (reconstructByteScript (List.replicate 255 (1, 1)) 255).isSome = true := by decide +kernel
/-- Lines of the programs P1 to P5. -/
theorem test_assemble :
    assembleLine "run split 3, 5 ; word 0x00050307".toList = .ok [.write 0x0000 0x00050307, .poll] ∧
    assembleLine "ld COEF[0], 200, 7, 3".toList = .ok [.write 0x0400 200, .write 0x0404 7, .write 0x0408 3] ∧
    assembleLine "rd SY[3]".toList = .ok [.read 0x100C] ∧ assembleLine "wr @0x0008, 0xABCD1234".toList = .ok [.write 0x0008 0xABCD1234] ∧
    assembleLine "ack".toList = .ok [.write 0x0004 0xE] ∧ assembleLine "cmd EVAL 256".toList = .error .countTooLarge := by
  decide +kernel

/-! Witnesses: for each statement with hypotheses, concrete data that meets them, for each clause, at the ends of the ranges -/

theorem witness_CommandWordRoundTrip : (Instr.split 0 255).WellFormed ∧ (Instr.interp 255 255).WellFormed ∧
    (Instr.eval 0).WellFormed ∧ Instr.wipe.WellFormed := by decide

theorem witness_LegalWordHasOneSpelling :
    ((opOf 0x00000100).toNat ≤ 5 ∧ p1Of 0x00000100 ≠ 0) ∧ ((opOf 0x00FF0005).toNat ≤ 5 ∧ p2Of 0x00FF0005 ≠ 0) ∧
    ((opOf 0x0000FF09).toNat = 9 ∧ p1Of 0x0000FF09 ≠ 0) ∧ ((opOf 0x00010306).toNat = 6 ∧ p2Of 0x00010306 ≠ 0) ∧
    decode 0x00FFFF08 = .ok (.interp 255 255) := by decide

theorem witness_WordsSelectOpcodeTableRows : decode 0x00FFFF07 = .ok (.split 255 255) ∧
    (⟨0xFF0000FF, 0x00000007⟩ : TableRow) ∈ opcodeTable ∧ (0x00FFFF07 : Word) &&& 0xFF0000FF = 0x00000007 ∧
    (∀ row ∈ opcodeTable, (0x0000000A : Word) &&& row.mask ≠ row.value) := by decide

theorem witness_ReservedBitsAndOpcodesAreIllegal : decode 0x00000009 = .ok .wipe ∧
    10 ≤ ((0x0000000A : Word).extractLsb' 0 4).toNat ∧ 10 ≤ ((0x0000000F : Word).extractLsb' 0 4).toNat ∧
    (0x00000010 : Word).extractLsb' 4 4 ≠ 0 ∧ (0x01000000 : Word).extractLsb' 24 8 ≠ 0 := by decide

theorem witness_AssemblerProducesOnlyLegalWords :
    assembleCommand [.word "split".toList, .word "0xFF".toList, .comma, .word "255".toList] = .ok (.split 255 255) ∧
    (numberOf "256".toList = .ok 256 ∧ numberOf "0xFF".toList = .ok 255 ∧ numberOf "0".toList = .ok 0) ∧
    "nop".toList.map Char.toUpper = "NOP".toList ∧ "Eval".toList.map Char.toUpper = "EVAL".toList ∧
    "split".toList.map Char.toUpper = "SPLIT".toList ∧ "INTERP".toList.map Char.toUpper = "INTERP".toList := by decide +kernel

theorem witness_StepCompletesDecodedCommand :
    ((pending 0x9 [] [.engine]).busy = true ∧ (pending 0x9 [] [.engine]).turns = [.engine] ∧
      decode (pending 0x9 [] [.engine]).cmdReg = .ok .wipe) ∧
    ((pending 0x9 [] []).turns = []) ∧ ((hosted [] [.engine]).busy = false ∧ (hosted [] [.engine]).turns = [.engine]) ∧
    (turnOf (pending 0x9 [.read 0x1FFF] [.host]) = .host ∧ (pending 0x9 [.read 0x1FFF] [.host]).host = .read 0x1FFF :: []) ∧
    (turnOf (hosted [.write 0x13FC 5, .poll] []) = .host ∧ (hosted [.write 0x13FC 5, .poll] []).host = .write 0x13FC 5 :: [.poll]) ∧
    (turnOf (pending 0x9 [.poll] [.host]) = .host ∧ (pending 0x9 [.poll] [.host]).host = .poll :: []) ∧
    (turnOf (hosted [] []) = .host ∧ (hosted [] []).host = []) := by
  decide

theorem witness_CommandLifeCycle : (Instr.split 255 255).WellFormed ∧
    (hosted [.write 0x0000 (encode (.split 255 255))] [.host, .engine]).busy = false ∧
    (hosted [.write 0x0000 (encode (.split 255 255))] [.host, .engine]).err = false ∧
    (hosted [.write 0x0000 (encode (.split 255 255))] [.host, .engine]).host = .write 0x0000 (encode (.split 255 255)) :: [] ∧
    (hosted [.write 0x0000 (encode (.split 255 255))] [.host, .engine]).turns = .host :: .engine :: [] := by decide

theorem witness_IllegalWordReportsIllegalCommand : decode (pending 0x0000000A [] []).cmdReg = .error .reservedOp ∧
    (∀ row ∈ opcodeTable, (0x80000000 : Word) &&& row.mask ≠ row.value) := by decide

theorem witness_AcceptedCommandCompletes : (pending 0x0 [.poll] [.host, .host]).busy = true ∧
    Turn.reset ∉ (pending 0x0 [.poll] [.host, .host]).turns := by decide

theorem witness_PendingCommandFreezesData : ∃ s t, s.busy = true ∧ step s = .next t ∧ t.busy = true :=
  ⟨pending 0x1 [.write 0x0008 5] [.host], _, rfl, rfl, by decide +kernel⟩

theorem witness_ResetAbortsPendingCommand : turnOf (pending 0x1 [] [.reset]) = .reset ∧
    (∃ s t, s.busy = true ∧ step s = .next t ∧ t.busy = false ∧ turnOf s = .reset) ∧
    (∃ s t, s.busy = true ∧ step s = .next t ∧ t.busy = false ∧ turnOf s = .engine) :=
  ⟨rfl, ⟨pending 0x1 [] [.reset], _, rfl, rfl, by decide +kernel⟩, ⟨pending 0x0 [] [], _, rfl, rfl, by decide +kernel⟩⟩

theorem witness_StatusInvariantsKept : ∃ s t, StatusInv s ∧ s.err = true ∧ step s = .next t :=
  ⟨failed 0x2 [.write 0x0004 0xE] [.host], _, by decide +kernel, rfl, rfl⟩

theorem witness_ErrorClassFollowsErrorCode : ∃ s t, s.errCode.toNat ≤ 7 ∧ step s = .next t :=
  ⟨{ pending 0xF [] [] with errCode := 7 }, _, by decide +kernel, rfl⟩

theorem witness_BusyFollowsTheCommand :
    (∃ s t, step s = .next t ∧ s.busy = false ∧ t.busy = true) ∧ (∃ s t, step s = .next t ∧ s.busy = true ∧ t.busy = false) ∧
    (HostWrites (hosted [.write 0x0000 0xFFFFFFFF] [.host]) 0x0000 0xFFFFFFFF ∧
      (hosted [.write 0x0000 0xFFFFFFFF] [.host]).busy = false ∧ (hosted [.write 0x0000 0xFFFFFFFF] [.host]).err = false) ∧
    turnOf (pending 0x0 [] []) = .engine ∧ turnOf (pending 0x0 [] [.reset]) = .reset ∧
    HostWrites (pending 0x0 [.write 0x0004 0x1] [.host]) 0x0004 0x1 :=
  ⟨⟨hosted [.write 0x0000 0x1] [.host], _, rfl, rfl, by decide +kernel⟩, ⟨pending 0x0 [] [], _, rfl, rfl, by decide +kernel⟩,
    ⟨⟨rfl, rfl⟩, rfl, rfl⟩, rfl, rfl, ⟨rfl, rfl⟩⟩

theorem witness_DoneFollowsTheCommand :
    (∃ s t, step s = .next t ∧ s.done = false ∧ t.done = true) ∧
    (∃ s t, step s = .next t ∧ turnOf s = .engine ∧ s.busy = true ∧ s.err = false ∧ t.err = false) ∧
    (∃ s t, step s = .next t ∧ s.done = true ∧ t.done = false) ∧
    (HostWrites { hosted [.write 0x0000 0x1] [.host] with done := true } 0x0000 0x1) ∧
    (HostWrites { hosted [.write 0x0004 0x2] [.host] with done := true } 0x0004 0x2 ∧ (0x2 : Word).getLsbD 1 = true) ∧
    (HostWrites { hosted [.write 0x0004 0xD] [.host] with done := true } 0x0004 0xD ∧ (0xD : Word).getLsbD 1 = false) ∧
    turnOf (hosted [] [.reset]) = .reset :=
  ⟨⟨pending 0x0 [] [], _, rfl, rfl, by decide +kernel⟩, ⟨pending 0x0 [] [], _, rfl, rfl, rfl, rfl, by decide +kernel⟩,
    ⟨{ hosted [.write 0x0004 0x2] [.host] with done := true }, _, rfl, rfl, by decide +kernel⟩, ⟨rfl, rfl⟩,
    ⟨⟨rfl, rfl⟩, by decide⟩, ⟨⟨rfl, rfl⟩, by decide⟩, rfl⟩

theorem witness_ErrorMustBeAcknowledged :
    (∃ s t, step s = .next t ∧ s.err = false ∧ t.err = true) ∧
    (∃ s t, step s = .next t ∧ turnOf s = .engine ∧ s.busy = true ∧ s.done = false ∧ t.done = false) ∧
    (∃ s t, step s = .next t ∧ s.err = true ∧ t.err = false) ∧
    (HostWrites (failed 0x2 [.write 0x0004 0x4] [.host]) 0x0004 0x4 ∧ (0x4 : Word).getLsbD 2 = true) ∧
    turnOf (failed 0x2 [] [.reset]) = .reset ∧
    (HostWrites (failed 0x2 [.write 0x0000 0x1] [.host]) 0x0000 0x1 ∧ (failed 0x2 [.write 0x0000 0x1] [.host]).err = true) :=
  ⟨⟨pending 0xA [] [], _, rfl, rfl, by decide +kernel⟩, ⟨pending 0xA [] [], _, rfl, rfl, rfl, rfl, by decide +kernel⟩,
    ⟨failed 0x2 [.write 0x0004 0x4] [.host], _, rfl, rfl, by decide +kernel⟩, ⟨⟨rfl, rfl⟩, by decide⟩, rfl, ⟨rfl, rfl⟩, rfl⟩

theorem witness_ErrorRecordIsKept : ∃ s t, StatusInv s ∧ s.err = true ∧ step s = .next t ∧ turnOf s ≠ .reset ∧
    ∀ d, HostWrites s 0x0004 d → d.getLsbD 2 = false :=
  ⟨failed 0x2 [.write 0x0004 0xB] [.host], _, by decide +kernel, rfl, rfl, by decide, fun d h => by
    have : (0xB : Word) = d := by simpa [HostWrites, failed, hosted] using h.2
    subst this; decide⟩

theorem witness_DiscardedWritesOnlySetDrop :
    (pending 0x1 [] []).busy = true ∧ (∃ l : Loc, l = .entry .py 255 ∧ ∃ bank i, bank ≠ .sy ∧ l = .entry bank i) ∧
    ((failed 0x1 [] []).busy = false ∧ (failed 0x1 [] []).err = true) ∧ targetOf 0x0018 = .reserved ∧
    targetOf 0x1FFC = .reserved ∧ (∃ i, (0x13FC : Offset) = offsetOf (.entry .sy i)) ∧
    ∃ s t, step s = .next t ∧ s.drop = true ∧ t.drop = false :=
  ⟨rfl, ⟨_, rfl, .py, 255, by decide, rfl⟩, ⟨rfl, rfl⟩, by decide, by decide, ⟨255, by decide⟩,
    ⟨{ hosted [.write 0x0004 0x8] [.host] with drop := true }, _, rfl, rfl, by decide +kernel⟩⟩

theorem witness_CmdRegHoldsLastAcceptedWord :
    (State.reset.busy = false ∧ State.reset.err = false) ∧ (pending 0x1 [] []).busy = true ∧ (failed 0x1 [] []).err = true ∧
    (∃ s t, step s = .next t ∧ t.cmdReg ≠ s.cmdReg) ∧ ∃ s t, step s = .next t ∧ Completes s .wipe :=
  ⟨⟨rfl, rfl⟩, rfl, rfl, ⟨hosted [.write 0x0000 0x1] [.host], _, rfl, by decide +kernel⟩,
    ⟨pending 0x9 [] [], _, rfl, rfl, rfl, by decide⟩⟩

theorem witness_AddressMap : targetOf 0x1000 = .loc (.entry .sy 0) ∧ targetOf 0x13FC = .loc (.entry .sy 255) := by decide

theorem witness_ReadsReturnTheLocation : targetOf 0x0018 = .reserved ∧ targetOf 0x03FC = .reserved ∧
    targetOf 0x1400 = .reserved ∧ State.reset.busy = false ∧ (pending 0x1 [] []).busy = true := by decide

theorem witness_WritesChangeTheLocation : (pending 0x1 [] []).busy = true ∧ (failed 0x1 [] []).err = true ∧
    (State.reset.busy = false ∧ State.reset.err = false) ∧ targetOf 0x03FC = .reserved ∧ targetOf 0x1FFC = .reserved := by decide

theorem witness_StoredEntryIsReadBack : State.reset.busy = false ∧ BankName.coef ≠ .sy := by decide

theorem witness_MisalignedAndReservedOffsets : (0x1FFF : Offset).extractLsb' 0 2 ≠ 0#2 ∧ (0x0001 : Offset).extractLsb' 0 2 ≠ 0#2 ∧
    ((0x0018 : Offset).extractLsb' 0 2 = 0#2 ∧ 0x0018 ≤ (0x0018 : Offset).toNat ∧ (0x0018 : Offset).toNat ≤ 0x03FC) ∧
    ((0x03FC : Offset).extractLsb' 0 2 = 0#2 ∧ (0x03FC : Offset).toNat ≤ 0x03FC) ∧
    ((0x1400 : Offset).extractLsb' 0 2 = 0#2 ∧ 0x1400 ≤ (0x1400 : Offset).toNat) ∧
    ((0x1FFC : Offset).extractLsb' 0 2 = 0#2 ∧ 0x1400 ≤ (0x1FFC : Offset).toNat) := by decide

theorem witness_ShareFileRoundTrip : (⟨255, 255, [0, 65520]⟩ : Share).k ≠ 0 ∧ (⟨255, 255, [0, 65520]⟩ : Share).x ≠ 0 ∧
    ∀ y ∈ (⟨255, 255, [0, 65520]⟩ : Share).ys, Canonical y :=
  ⟨by decide, by decide, by simp⟩

theorem witness_OperandRegistersChangeOnlyByHost :
    (∃ s t, step s = .next t ∧ t.a ≠ s.a ∧ turnOf s = .host) ∧ (∃ s t, step s = .next t ∧ t.b ≠ s.b ∧ turnOf s = .reset) ∧
    (∃ s t, step s = .next t ∧ t.a ≠ s.a ∧ Completes s .wipe) ∧
    (∃ s t d, step s = .next t ∧ HostWrites s 0x0008 d ∧ s.busy = false) ∧
    (∃ s t d, step s = .next t ∧ HostWrites s 0x000C d ∧ s.busy = false) :=
  ⟨⟨hosted [.write 0x0008 5] [.host], _, rfl, by decide +kernel⟩,
    ⟨{ hosted [] [.reset] with b := 5 }, _, rfl, by decide +kernel⟩,
    ⟨{ pending 0x9 [] [] with a := 5 }, _, rfl, by decide +kernel, rfl, rfl, by decide⟩,
    ⟨hosted [.write 0x0008 0xFFFFFFFF] [.host], _, 0xFFFFFFFF, rfl, ⟨rfl, rfl⟩, rfl⟩,
    ⟨failed 0x2 [.write 0x000C 0x10000] [.host], _, 0x10000, rfl, ⟨rfl, rfl⟩, rfl⟩⟩

theorem witness_ResultRegisterChangesOnlyByCommand : State.reset.busy = false ∧
    (∃ s t, step s = .next t ∧ t.r ≠ s.r ∧ Completes s .add) ∧ (∃ s t, step s = .next t ∧ t.r ≠ s.r ∧ turnOf s = .reset) :=
  ⟨rfl, ⟨{ pending 0x1 [] [] with a := 5 }, _, rfl, by decide +kernel, rfl, rfl, by decide⟩,
    ⟨{ hosted [] [.reset] with r := 5 }, _, rfl, by decide +kernel⟩⟩

/-- Two arrays with different first entries differ. -/
theorem bank_ne {x y : Bank} (h : readEntry x 0 ≠ readEntry y 0) : x ≠ y := fun e => h (by rw [e])

theorem witness_OperandArraysChangeOnlyByHost :
    (∃ s t, step s = .next t ∧ getBank t .px ≠ getBank s .px ∧ turnOf s = .host) ∧
    (∃ s t, step s = .next t ∧ getBank t .coef ≠ getBank s .coef ∧ Completes s (.split 0 0)) ∧
    (∃ s t d, step s = .next t ∧ HostWrites s (offsetOf (.entry .coef 0)) d ∧ s.busy = false) ∧
    (∃ s t d, step s = .next t ∧ HostWrites s (offsetOf (.entry .py 255)) d ∧ s.busy = false) :=
  ⟨⟨hosted [.write 0x0800 5] [.host], _, rfl, bank_ne (by decide +kernel), rfl⟩,
    ⟨{ pending 0x7 [] [] with coef := bank [200] }, _, step_after (by decide +kernel), bank_ne (by decide +kernel), rfl, rfl,
      by decide⟩,
    ⟨hosted [.write 0x0400 0xFFFF] [.host], _, 0xFFFF, rfl, ⟨rfl, rfl⟩, rfl⟩,
    ⟨hosted [.write 0x0FFC 1] [.host], _, 1, rfl, ⟨rfl, rfl⟩, rfl⟩⟩

theorem witness_ShareArrayChangesOnlyBySplit : State.reset.busy = false ∧ coefAt (withCoef [65520] 0) 0 < Config.prime ∧
    (∃ t, exec (.split 4 3) (withCoef [200] 0) = .next t) ∧ splitError 4 3 (withCoef [200] 0) = some .argKGtN ∧
    ∃ s t, step s = .next t ∧ t.sy ≠ s.sy ∧ Completes s (.split 1 1) :=
  ⟨rfl, by decide +kernel, let ⟨t, ht, _⟩ := exec_effect (.split 4 3) (withCoef [200] 0); ⟨t, ht⟩, by decide +kernel,
    ⟨{ pending 0x00010107 [] [] with coef := bank [200] }, _, step_after (by decide +kernel), bank_ne (by decide +kernel), rfl, rfl,
      by decide⟩⟩

theorem witness_CanonicalResultsKept : ∃ s t, CanonicalResults s ∧ step s = .next t :=
  ⟨{ pending 0x1 [] [] with a := 65535, b := 65535, r := 65520 }, _,
    ⟨by decide, fun i _ => show Canonical (readEntry zeroBank i) by rw [readEntry_zeroBank]; decide⟩, rfl⟩

theorem witness_NopCompletesAndChangesNoData : (failed 0x2 [] []).err = true := rfl

theorem witness_InvIsTheFieldInverse : ((withAB 1 0).a ≠ 0 ∧ (withAB 1 0).a ≠ 65521) ∧ ((withAB 65535 0).a ≠ 0 ∧ (withAB 65535 0).a ≠ 65521) ∧
    (withAB 0 0).a = 0 ∧ (withAB 65521 0).a = 65521 := by decide

theorem witness_DivIsModularQuotient : ((withAB 0 1).b ≠ 0 ∧ (withAB 0 1).b ≠ 65521) ∧ ((withAB 0 65535).b ≠ 0 ∧ (withAB 0 65535).b ≠ 65521) ∧
    (withAB 0 0).b = 0 ∧ (withAB 0 65521).b = 65521 ∧ (withAB 6 3).b.toNat * 43681 % Config.prime = 1 := by decide

/-- EVAL K completes with a result for K = 1 and K = 255. -/
theorem witness_EvalIsThePolynomialValue : (1 ≤ 1 ∧ 1 ≤ 255) ∧ (1 ≤ 255 ∧ 255 ≤ 255) := by decide

theorem witness_SplitWritesTheShares : (0 ≤ 255 ∧ 255 ≤ 255 ∧ (0 = 0 ∨ 255 = 0)) ∧ (255 ≤ 255 ∧ 1 ≤ 254 ∧ 254 < 255) ∧
    Config.prime ≤ (readEntry (withCoef [65521] 0).coef 0).toNat ∧ (readEntry (withCoef [65520] 0).coef 0).toNat < Config.prime := by
  decide +kernel

theorem witness_SplitWipesOnEveryExitPath : decode (pending 0x00000007 [] []).cmdReg = .ok (.split 0 0) ∧
    opOf (pending 0x01050307 [] []).cmdReg = 0x7 ∧ rsv1Of (pending 0x01050307 [] []).cmdReg ≠ 0 ∧
    opOf (pending 0x00000017 [] []).cmdReg = 0x7 ∧ rsv0Of (pending 0x00000017 [] []).cmdReg ≠ 0 := by decide

theorem witness_InterpReconstructsTheConstantTerm :
    (readEntry (withPoints [1, 65522] []).px 0).toNat % Config.prime = (readEntry (withPoints [1, 65522] []).px 1).toNat % Config.prime ∧
    DistinctX (pxAt (withPoints [1, 65520] [])) 2 ∧
    PassesThrough (fun i => if i = 0 then 0 else 10) (pxAt (withPoints [1, 2] [10, 20])) (pyAt (withPoints [1, 2] [10, 20])) 2 := by
  refine ⟨by decide +kernel, ?_, ?_⟩
  · intro i j hij hj
    obtain ⟨rfl, rfl⟩ : i = 0 ∧ j = 1 := by omega
    decide +kernel
  · intro j hj
    simp only [polynomial, Finset.sum_range_succ, Finset.sum_range_zero]
    interval_cases j <;> decide +kernel

theorem witness_WipeZeroesAllData : isData .r = true ∧ isData (.entry .coef 0) = true ∧ isData (.entry .sy 255) = true := by decide

theorem witness_WipeErasesEverySecret : ∃ s u t v : State, s.cmdReg = u.cmdReg ∧ s.drop = u.drop ∧ s.err = u.err ∧
    s.errCode = u.errCode ∧ s.a ≠ u.a ∧ exec .wipe s = .next t ∧ exec .wipe u = .next v :=
  ⟨withAB 1 2, withAB 3 4, _, _, rfl, rfl, rfl, rfl, by decide, rfl, rfl⟩

theorem witness_CommandsWriteOnlyTheirFrame : State.reset.err = false := rfl

theorem witness_InverseIsUnique : modp 1 ≠ 0 ∧ modp (-1) ≠ 0 ∧ (1 ≤ (65520 : Int) ∧ modp (65520 * 65520) = 1) := by decide

theorem witness_ExtendedGcdIsBezout : ((0 : Nat) ≠ 0 ∨ (1 : Nat) ≠ 0) ∧ ((1 : Nat) ≠ 0 ∨ (0 : Nat) ≠ 0) := by decide

theorem witness_TrueModuloAndDivTimesDenominator : (0 : Int) < 1 ∧ (withAB 0 1).b.toNat % Config.prime ≠ 0 ∧
    (withAB 0 65535).b.toNat % Config.prime ≠ 0 := by decide

theorem witness_FieldCommandsSeeResiduesOnly : (withAB 65522 65535).r = (withAB 1 14).r ∧
    (withAB 65522 65535).a.toNat % Config.prime = (withAB 1 14).a.toNat % Config.prime ∧
    (withAB 65522 65535).b.toNat % Config.prime = (withAB 1 14).b.toNat % Config.prime ∧
    (withAB 65522 65535).err = (withAB 1 14).err := by decide

theorem witness_HornerIsThePolynomial : 1 ≤ 1 := by decide

theorem witness_LagrangeIsTheInterpolantAtZero : DistinctX (fun j => (j : Int)) 2 ∧
    PassesThrough (fun i => if i = 0 then 42 else 57) (fun j => (j : Int)) (fun j => if j = 0 then 42 else 99) 2 := by
  refine ⟨?_, ?_⟩
  · intro i j hij hj
    obtain ⟨rfl, rfl⟩ : i = 0 ∧ j = 1 := by omega
    decide
  · intro j hj
    simp only [polynomial, Finset.sum_range_succ, Finset.sum_range_zero]
    interval_cases j <;> decide +kernel

theorem witness_DuplicateCheckIsZeroDenominatorCheck : 0 < 1 ∧ State.reset.errCode = 0 := by decide

theorem witness_SplitAgreesWithEval : (readEntry (withCoef [65520, 1] 0).coef 0).toNat < Config.prime ∧
    (1 ≤ 2 ∧ 2 ≤ 255 ∧ 255 ≤ 255) ∧ ∀ i < 2, readEntry (withCoef [65520, 1, 9] 3).coef i = readEntry (withCoef [65520, 1] 0).coef i := by
  decide +kernel

/-- E1: SPLIT 3, 5 of the polynomial 200 + 7x + 3x², and the points of the participants 2, 4 and 5. -/
theorem witness_ReconstructionRecoversTheSecret :
    let s := withCoef [200, 7, 3] 0
    let u := withPoints [2, 4, 5] [226, 276, 310]
    let x := fun j => if j = 0 then 2 else if j = 1 then 4 else 5
    (readEntry s.coef 0).toNat < Config.prime ∧ (∀ j < 3, 1 ≤ x j ∧ x j ≤ 5) ∧ (∀ i j, i < j → j < 3 → x i ≠ x j) ∧
    ∃ t, exec (.split 3 5) s = .next t ∧
      ∀ j < 3, readEntry u.px j = BitVec.ofNat 16 (x j) ∧ readEntry u.py j = readEntry t.sy (x j - 1) := by
  refine ⟨by decide +kernel, by decide, ?_, ?_⟩
  · intro i j hij hj
    interval_cases j <;> interval_cases i <;> decide
  · have h : splitError 3 5 (withCoef [200, 7, 3] 0) = none := by decide +kernel
    exact ⟨completeOk (wipeCoef (storeShares 3 5 (withCoef [200, 7, 3] 0))), by simp only [exec, execSplit, h], by decide +kernel⟩

theorem witness_PointOrderDoesNotMatter :
    let s := withPoints [1, 65520] [10, 20]
    let u := withPoints [65520, 1] [20, 10]
    DistinctX (pxAt s) 2 ∧ (∀ j < 2, 1 - j < 2) ∧ (∀ i j, i < 2 → j < 2 → 1 - i = 1 - j → i = j) ∧
    ∀ j < 2, readEntry u.px j = readEntry s.px (1 - j) ∧ readEntry u.py j = readEntry s.py (1 - j) := by
  refine ⟨?_, by omega, by omega, by decide +kernel⟩
  intro i j hij hj
  obtain ⟨rfl, rfl⟩ : i = 0 ∧ j = 1 := by omega
  decide +kernel

end Sys2Proof.Tests
end

section
/-! SUPPORT. Facts about the state that the proofs of 10_state.md share: the address map both ways, what a transaction at a location
does, how a step moves the control state (CMDREG and STATUS), and how it moves the results (R and SY). -/

namespace Sys2Proof.Machine

/-! The address map -/

theorem offsetOf_entry_toNat (bank : BankName) (i : Fin Config.arrayDepth) :
    (offsetOf (.entry bank i)).toNat = bankBase bank + 4 * i.val := by
  have hi : i.val < 256 := i.isLt
  cases bank <;> simp only [offsetOf, bankBase, BitVec.toNat_ofNat] <;> omega

theorem entryIndex_of_eq {base n : Nat} {i : Fin Config.arrayDepth} (h : n = base + 4 * i.val) : entryIndex base n = i := by
  have hi : i.val < 256 := i.isLt
  apply Fin.ext
  simp only [entryIndex, Fin.ofNat, Config.arrayDepth]
  omega

theorem entryIndex_val {base n : Nat} (h : n < base + 1024) : (entryIndex base n).val = (n - base) / 4 := by
  simp only [entryIndex, Fin.ofNat, Config.arrayDepth]
  omega

theorem alignedTarget_entry (bank : BankName) (i : Fin Config.arrayDepth) :
    alignedTarget (bankBase bank + 4 * i.val) = .loc (.entry bank i) := by
  have hi : i.val < 256 := i.isLt
  have hx (base : Nat) : entryIndex base (base + 4 * i.val) = i := entryIndex_of_eq rfl
  cases bank <;> simp (disch := omega) only [alignedTarget, bankBase, if_neg, if_pos, hx]

/-- Each location lies at its offset (R37). -/
@[simp] theorem targetOf_offsetOf (l : Loc) : targetOf (offsetOf l) = .loc l := by
  cases l with
  | cmd => rfl
  | status => rfl
  | a => rfl
  | b => rfl
  | r => rfl
  | prime => rfl
  | entry bank i =>
    have hal : (bankBase bank + 4 * i.val) % 4 = 0 := by cases bank <;> simp only [bankBase] <;> omega
    rw [targetOf, offsetOf_entry_toNat, if_neg (not_not_intro hal), alignedTarget_entry]

theorem offsetOf_of_alignedTarget {n : Nat} {l : Loc} (hn : n % 4 = 0) (h : alignedTarget n = .loc l) :
    (offsetOf l).toNat = n := by
  unfold alignedTarget at h
  repeat' split at h
  iterate 6 · cases h; subst n; rfl
  · cases h
  iterate 4
    · cases h
      rw [offsetOf_entry_toNat, entryIndex_val (by omega)]
      simp only [bankBase]
      omega
  · cases h

/-- An offset leads to a location only if it is the location's own (R37). -/
theorem eq_offsetOf_of_targetOf {addr : Offset} {l : Loc} (h : targetOf addr = .loc l) : addr = offsetOf l := by
  unfold targetOf at h
  split at h
  · cases h
  · rename_i hn
    exact BitVec.eq_of_toNat_eq (offsetOf_of_alignedTarget (not_not.mp hn) h).symm

/-! One transaction at a location -/

theorem busRead_offsetOf (l : Loc) (s : State) : busRead (offsetOf l) s = readLoc l s := by
  simp only [busRead, targetOf_offsetOf]

theorem busWrite_offsetOf (l : Loc) (d : Word) (s : State) : busWrite (offsetOf l) d s = (.okay 0, writeLoc l d s) := by
  simp only [busWrite, targetOf_offsetOf]

/-- A read returns the stored word where the location is no data or no command is pending (R40). -/
theorem readLoc_stored {l : Loc} {s : State} (h : s.busy = false ∨ isData l = false) :
    readLoc l s = (.okay (locWord s l), s) := by
  rcases h with h | h <;> simp [readLoc, h]

theorem writeCmd_accepted {w : Word} {s : State} (hb : s.busy = false) (he : s.err = false) : writeCmd w s = accept w s := by
  simp [writeCmd, hb, he]

theorem writeCmd_discarded {w : Word} {s : State} (h : s.busy = true ∨ s.err = true) : writeCmd w s = setDrop s := by
  rcases h with h | h <;> simp [writeCmd, h]

theorem writeData_discarded {store : State → State} {s : State} (h : s.busy = true) : writeData store s = setDrop s := by
  simp [writeData, h]

theorem writeLoc_entry {bank : BankName} (hn : bank ≠ .sy) (i : Fin Config.arrayDepth) (d : Word) (s : State) :
    writeLoc (.entry bank i) d s = writeData (storeEntry bank i.val d) s := by
  cases bank with
  | coef => rfl
  | px => rfl
  | py => rfl
  | sy => exact absurd rfl hn

/-- The locations that R27 discards a write to while BUSY = 1. -/
theorem writeLoc_discarded {l : Loc} {s : State} (d : Word) (hb : s.busy = true)
    (hl : l = .cmd ∨ l = .a ∨ l = .b ∨ ∃ bank i, bank ≠ .sy ∧ l = .entry bank i) : writeLoc l d s = setDrop s := by
  rcases hl with rfl | rfl | rfl | ⟨bank, i, hn, rfl⟩
  · exact writeCmd_discarded (.inl hb)
  · exact writeData_discarded hb
  · exact writeData_discarded hb
  · rw [writeLoc_entry hn, writeData_discarded hb]

/-- A write where writes are ignored changes no state. -/
theorem busWrite_of_ignores {addr : Offset} (h : Ignores addr) (d : Word) (s : State) : (busWrite addr d s).2 = s := by
  rcases h with h | h | h | h | ⟨i, h⟩ <;> simp only [busWrite, h, writeLoc]

/-! The control state: CMDREG and STATUS -/

/-- CMDREG and every field of STATUS are the same. -/
structure SameControl (s t : State) : Prop where
  cmdReg : t.cmdReg = s.cmdReg
  busy : t.busy = s.busy
  done : t.done = s.done
  err : t.err = s.err
  drop : t.drop = s.drop
  errCode : t.errCode = s.errCode

/-- What a step can do to CMDREG and STATUS (R22 to R28), as an update of the state before it. -/
inductive ControlUpdate (s : State) : State → Prop where
  | kept (h : turnOf s = .engine → s.busy = false) : ControlUpdate s s
  | accepted (w : Word) (hw : HostWrites s 0x0000 w) (hb : s.busy = false) (he : s.err = false) :
      ControlUpdate s (accept w s)
  | acknowledged (d : Word) (hw : HostWrites s 0x0004 d) : ControlUpdate s (writeStatus d s)
  | discarded (ht : turnOf s = .host) : ControlUpdate s (setDrop s)
  | succeeded (ht : turnOf s = .engine) (hb : s.busy = true) : ControlUpdate s (completeOk s)
  | failed (ht : turnOf s = .engine) (hb : s.busy = true) (e : ErrorCode) : ControlUpdate s (raiseError e s)
  | reset (ht : turnOf s = .reset) : ControlUpdate s (resetBlock s)

theorem sameControl_afterTurn (s : State) : SameControl s (afterTurn s) := ⟨rfl, rfl, rfl, rfl, rfl, rfl⟩

/-- A transaction's end outside the block leaves the control state that the transaction gave. -/
theorem SameControl.respond {s t : State} (h : SameControl s t) (x : Response) (ops : List HostOp) :
    SameControl s (respond x (hostContinues ops t)) :=
  ⟨h.cmdReg, h.busy, h.done, h.err, h.drop, h.errCode⟩

theorem sameControl_of_busRead {addr : Offset} {s t : State} {x : Response} (h : busRead addr s = (x, t)) :
    SameControl s t := by
  rcases busRead_cases addr s t x h with rfl | ⟨-, -, rfl⟩ <;> exact ⟨rfl, rfl, rfl, rfl, rfl, rfl⟩

/-- A host write in its turn updates the control state as `ControlUpdate` lists. -/
theorem controlUpdate_of_writeEffect {s t : State} {addr : Offset} {d : Word} (hw : HostWrites s addr d)
    (he : WriteEffect addr d (afterTurn s) t) : ∃ u, ControlUpdate s u ∧ SameControl u t := by
  have kept : ControlUpdate s s := .kept fun ht => by simp [hw.1] at ht
  cases he with
  | ignored _ => exact ⟨s, kept, sameControl_afterTurn s⟩
  | accepted hl hb he =>
    obtain rfl := eq_offsetOf_of_targetOf hl
    exact ⟨_, .accepted d hw hb he, rfl, rfl, rfl, rfl, rfl, rfl⟩
  | status hl =>
    obtain rfl := eq_offsetOf_of_targetOf hl
    exact ⟨_, .acknowledged d hw, rfl, rfl, rfl, rfl, rfl, rfl⟩
  | discarded _ _ _ => exact ⟨_, .discarded hw.1, rfl, rfl, rfl, rfl, rfl, rfl⟩
  | storeA _ _ => exact ⟨s, kept, rfl, rfl, rfl, rfl, rfl, rfl⟩
  | storeB _ _ => exact ⟨s, kept, rfl, rfl, rfl, rfl, rfl, rfl⟩
  | storeBank bank _ i _ _ => exact ⟨s, kept, by constructor <;> simp⟩

/-- A command's completion ends STATUS in one of the two ways of R101 and keeps CMDREG (R22). -/
theorem sameControl_of_execEffect {s t : State} {i : Instr} (h : ExecEffect s i t) :
    SameControl (completeOk s) t ∨ ∃ e, SameControl (raiseError e s) t := by
  cases h with
  | nop => exact .inl ⟨rfl, rfl, rfl, rfl, rfl, rfl⟩
  | result => exact .inl ⟨rfl, rfl, rfl, rfl, rfl, rfl⟩
  | failure _ _ e => exact .inr ⟨e, rfl, rfl, rfl, rfl, rfl, rfl⟩
  | splitDone => exact .inl ⟨rfl, rfl, rfl, rfl, rfl, rfl⟩
  | splitFailed _ _ e => exact .inr ⟨e, rfl, rfl, rfl, rfl, rfl, rfl⟩
  | wipe => exact .inl ⟨rfl, rfl, rfl, rfl, rfl, rfl⟩

/-- Every step updates the control state in one of the ways of `ControlUpdate`. -/
theorem step_control {s t : State} (h : step s = .next t) : ∃ u, ControlUpdate s u ∧ SameControl u t := by
  cases step_cases h with
  | hostIdle ht _ => exact ⟨s, .kept fun he => by simp [ht] at he, sameControl_afterTurn s⟩
  | hostRead ht op rest _ addr _ x u hr =>
    obtain ⟨h1, h2, h3, h4, h5, h6⟩ := (sameControl_of_busRead hr).respond x (hostAfter op rest x)
    exact ⟨s, .kept fun he => by simp [ht] at he, h1, h2, h3, h4, h5, h6⟩
  | hostWrite ht addr d rest hh x u hw =>
    obtain ⟨v, hv, hc⟩ := controlUpdate_of_writeEffect (hostWrites_of_head ht hh) (busWrite_cases hw)
    exact ⟨v, hv, hc.respond x rest⟩
  | engineIdle _ hb => exact ⟨s, .kept fun _ => hb, sameControl_afterTurn s⟩
  | completed ht hb i _ _ he =>
    rcases sameControl_of_execEffect he with ⟨h1, h2, h3, h4, h5, h6⟩ | ⟨e, h1, h2, h3, h4, h5, h6⟩
    · exact ⟨_, .succeeded ht hb, h1, h2, h3, h4, h5, h6⟩
    · exact ⟨_, .failed ht hb e, h1, h2, h3, h4, h5, h6⟩
  | illegal ht hb _ _ => exact ⟨_, .failed ht hb .illegalCommand, rfl, rfl, rfl, rfl, rfl, rfl⟩
  | reset ht => exact ⟨_, .reset ht, rfl, rfl, rfl, rfl, rfl, rfl⟩

/-- At the Engine's turn the update is a completion, or nothing where no command is pending (R101). -/
theorem ControlUpdate.of_engine {s u : State} (h : ControlUpdate s u) (ht : turnOf s = .engine) :
    s.busy = false ∧ u = s ∨ u = completeOk s ∨ ∃ e, u = raiseError e s := by
  cases h with
  | kept hb => exact .inl ⟨hb ht, rfl⟩
  | succeeded => exact .inr (.inl rfl)
  | failed _ _ e => exact .inr (.inr ⟨e, rfl⟩)
  | accepted _ hw => simp [hw.1] at ht
  | acknowledged _ hw => simp [hw.1] at ht
  | discarded hh => simp [hh] at ht
  | reset hr => simp [hr] at ht

/-- The control state after the step in which the host writes CMD. -/
theorem step_of_cmdWrite {s t : State} {w : Word} (h : step s = .next t) (hw : HostWrites s 0x0000 w) :
    SameControl (writeCmd w s) t := by
  obtain ⟨x, u, rest, hu, rfl⟩ := step_of_hostWrites h hw
  obtain ⟨-, rfl⟩ := Prod.mk.inj ((busWrite_offsetOf .cmd w (afterTurn s)).symm.trans hu)
  refine SameControl.respond ?_ x rest
  by_cases hd : s.busy = true ∨ s.err = true
  · rw [writeCmd_discarded hd, writeLoc, writeCmd_discarded (s := afterTurn s) hd]
    exact ⟨rfl, rfl, rfl, rfl, rfl, rfl⟩
  · simp only [not_or, Bool.not_eq_true] at hd
    rw [writeCmd_accepted hd.1 hd.2, writeLoc, writeCmd_accepted (s := afterTurn s) hd.1 hd.2]
    exact ⟨rfl, rfl, rfl, rfl, rfl, rfl⟩

/-- The control state after the step in which the host writes STATUS. -/
theorem step_of_statusWrite {s t : State} {d : Word} (h : step s = .next t) (hw : HostWrites s 0x0004 d) :
    SameControl (writeStatus d s) t := by
  obtain ⟨x, u, rest, hu, rfl⟩ := step_of_hostWrites h hw
  obtain ⟨-, rfl⟩ := Prod.mk.inj ((busWrite_offsetOf .status d (afterTurn s)).symm.trans hu)
  exact ⟨rfl, rfl, rfl, rfl, rfl, rfl⟩

theorem step_of_reset {s t : State} (h : step s = .next t) (ht : turnOf s = .reset) : t = resetBlock (afterTurn s) := by
  rw [step_eq_takeTurn, ht] at h
  cases h
  rfl

/-- The step that completes a command has the command's effect. -/
theorem step_of_completes {s t : State} {i : Instr} (h : step s = .next t) (hc : Completes s i) :
    ExecEffect (afterTurn s) i t := by
  obtain ⟨ht, hb, hd⟩ := hc
  have hd' : decode (afterTurn s).cmdReg = .ok i := hd
  simp only [step_eq_takeTurn, ht, takeTurn, engineTurn, afterTurn_busy, hb, if_true, complete, hd'] at h
  exact execEffect_of_exec h

/-! The results: R and SY -/

theorem canonical_toHalf {v : Int} (h0 : 0 ≤ v) (hp : v < Config.prime) : Canonical (toHalf v) := by
  have := toNat_toHalf v h0 hp
  simp only [Canonical]
  omega

theorem allZero_zeroBank : AllZero zeroBank := fun i _ => readEntry_zeroBank i

/-- The host writes neither R nor SY (R20, R33). -/
theorem writeEffect_keeps_results {addr : Offset} {d : Word} {s t : State} (h : WriteEffect addr d s t) :
    t.r = s.r ∧ t.sy = s.sy := by
  cases h with
  | ignored => exact ⟨rfl, rfl⟩
  | accepted => exact ⟨rfl, rfl⟩
  | status => exact ⟨rfl, rfl⟩
  | discarded => exact ⟨rfl, rfl⟩
  | storeA => exact ⟨rfl, rfl⟩
  | storeB => exact ⟨rfl, rfl⟩
  | storeBank bank hn i _ _ =>
    have hsy : getBank (storeEntry bank i.val d s) .sy = getBank s .sy := by
      rw [storeEntry, getBank_setBank, if_neg hn.symm]
    exact ⟨storeEntry_r s bank i.val d, hsy⟩

/-- A step keeps R and SY, or completes a command, or is a reset. -/
theorem step_results {s t : State} (h : step s = .next t) :
    (t.r = s.r ∧ t.sy = s.sy) ∨ (∃ i, Completes s i ∧ ExecEffect (afterTurn s) i t) ∨ turnOf s = .reset := by
  cases step_cases h with
  | hostIdle => exact .inl ⟨rfl, rfl⟩
  | hostRead _ _ _ _ addr _ x u hr =>
    rcases busRead_cases addr _ u x hr with rfl | ⟨-, -, rfl⟩ <;> exact .inl ⟨rfl, rfl⟩
  | hostWrite _ _ _ _ _ _ u hw =>
    have hk : u.r = s.r ∧ u.sy = s.sy := writeEffect_keeps_results (s := afterTurn s) (busWrite_cases hw)
    exact .inl hk
  | engineIdle => exact .inl ⟨rfl, rfl⟩
  | completed ht hb i hd _ he => exact .inr (.inl ⟨i, ⟨ht, hb, hd⟩, he⟩)
  | illegal => exact .inl ⟨rfl, rfl⟩
  | reset ht => exact .inr (.inr ht)

/-! The command word of WIPE -/

/-- The fields of R53, put together, are the word. -/
theorem append_fields (w : Word) : rsv1Of w ++ p2Of w ++ p1Of w ++ rsv0Of w ++ opOf w = w := by
  simp (disch := rfl) only [rsv1Of, p2Of, p1Of, rsv0Of, opOf, BitVec.extractLsb'_append_extractLsb'_eq_extractLsb',
    BitVec.extractLsb'_eq_self]

theorem decodePlain_eq_ok_iff {w : Word} {i j : Instr} : decodePlain w i = .ok j ↔ p1Of w = 0 ∧ p2Of w = 0 ∧ i = j := by
  unfold decodePlain
  split <;> simp_all

theorem decodeOp_eq_wipe {w : Word} (h : decodeOp w = .ok .wipe) : opOf w = 0x9 ∧ p1Of w = 0 ∧ p2Of w = 0 := by
  unfold decodeOp at h
  split at h
  case h_10 hop =>
    obtain ⟨h1, h2, -⟩ := decodePlain_eq_ok_iff.mp h
    exact ⟨BitVec.eq_of_toNat_eq hop, h1, h2⟩
  case h_7 =>
    unfold decodeEval at h
    split at h <;> cases h
  all_goals simp [decodePlain_eq_ok_iff] at h

/-- One word only is the command word of WIPE (R57, R58). -/
theorem eq_of_decode_wipe {w : Word} (h : decode w = .ok .wipe) : w = 0x00000009 := by
  unfold decode at h
  split at h
  · cases h
  split at h
  · cases h
  rename_i hr1 hr0
  obtain ⟨hop, h1, h2⟩ := decodeOp_eq_wipe h
  rw [← append_fields w, not_not.mp hr1, not_not.mp hr0, hop, h1, h2]
  rfl

/-! SPLIT's checks and the polynomial it evaluates -/

theorem splitError_eq_none {k n : Nat} {s : State} (hk : 1 ≤ k) (hn : k ≤ n) (hc : coefAt s 0 < Config.prime) :
    splitError k n s = none := by
  rw [splitError, if_neg (by omega), if_neg (by omega), if_neg (by omega)]

theorem exec_split_of_none {k n : Nat} {s : State} (h : splitError k n s = none) :
    exec (.split k n) s = .next (completeOk (wipeCoef (storeShares k n s))) := by
  simp only [exec, execSplit, h]

theorem exec_split_of_some {k n : Nat} {s : State} {e : ErrorCode} (h : splitError k n s = some e) :
    exec (.split k n) s = .next (raiseError e (wipeCoef s)) := by
  simp only [exec, execSplit, h]

theorem polynomial_succ (c : Nat → Int) (k : Nat) (x : Int) :
    polynomial c (k + 1) x = polynomial c k x + c k * x ^ k :=
  Finset.sum_range_succ _ _

/-- Horner's loop from `acc`, up to reduction mod p: the accumulator has been multiplied by x once for each coefficient. -/
theorem modp_countDown_horner (c : Nat → Int) (k : Nat) (x acc : Int) :
    modp (countDown k (fun i accum => modp (accum * x + c i)) acc) = modp (acc * x ^ k + polynomial c k x) := by
  induction k generalizing acc with
  | zero => simp [countDown, polynomial]
  | succ k ih =>
    have hr : modp (acc * x + c k) ≡ acc * x + c k [ZMOD (Config.prime : Nat)] := Int.mod_modEq _ _
    rw [countDown, ih, polynomial_succ]
    calc modp (modp (acc * x + c k) * x ^ k + polynomial c k x)
        = modp ((acc * x + c k) * x ^ k + polynomial c k x) := (hr.mul_right _).add_right _
      _ = modp (acc * x ^ (k + 1) + (polynomial c k x + c k * x ^ k)) := by ring_nf

/-- Horner's loop of R82 computes the polynomial of R81 mod p. -/
theorem horner_eq_polynomial (c : Nat → Int) (k : Nat) (x : Int) :
    horner c k x = polynomial c k x % (Config.prime : Int) := by
  obtain ⟨h0, hp⟩ := horner_range c k x
  have h := modp_countDown_horner c k x 0
  rw [zero_mul, zero_add] at h
  exact (modp_of_lt _ h0 hp).symm.trans h

end Sys2Proof.Machine
end

section
/-! PROOFS. The statements of the family 10_state.md. -/

namespace Sys2Proof.Machine

/-! STATUS and CMDREG: each statement is read off the control update that the step made -/

theorem errorNumber_le (e : ErrorCode) : (errorNumber e).toNat ≤ 7 := by cases e <;> decide

theorem statusWord_errorClass (s : State) : (statusWord s).extractLsb' 12 2 = errorClass s.errCode := by
  simp (disch := decide) only [statusWord, BitVec.extractLsb'_append_eq_of_le]
  exact BitVec.extractLsb'_append_eq_right

/-- No update of the control state gives ERRCODE a value above 7 (S8). -/
theorem ControlUpdate.errCode_le {s u : State} (h : ControlUpdate s u) (hs : s.errCode.toNat ≤ 7) : u.errCode.toNat ≤ 7 := by
  cases h with
  | kept => exact hs
  | accepted => exact Nat.zero_le 7
  | acknowledged d => rw [writeStatus_errCode]; split <;> [exact Nat.zero_le 7; exact hs]
  | discarded => exact hs
  | succeeded => exact hs
  | failed _ _ e => exact errorNumber_le e
  | reset => exact Nat.zero_le 7

/-- Settles O18: the classes value by value, and the bound by the control update of the step. -/
theorem errorClassFollowsErrorCode : Obligations.ErrorClassFollowsErrorCode := by
  refine ⟨statusWord_errorClass, rfl, ?_, ?_, Nat.zero_le 7, ?_⟩
  · rintro c (rfl | rfl | rfl) <;> rfl
  · rintro c (rfl | rfl | rfl | rfl) <;> rfl
  · intro s t hs h
    obtain ⟨u, hu, hc⟩ := step_control h
    rw [hc.errCode]
    exact hu.errCode_le hs

/-- Settles O19: of the control updates only the accept sets BUSY, and only a completion or a reset clears it. -/
theorem busyFollowsTheCommand : Obligations.BusyFollowsTheCommand := by
  intro s t h
  obtain ⟨u, hu, hc⟩ := step_control h
  rw [hc.busy, hc.cmdReg]
  refine ⟨?rises, ?falls, ?accept, ?engine, ?reset, ?statusWrite⟩
  case rises =>
    intro h0 h1
    cases hu with
    | accepted w hw _ he => exact ⟨w, hw, he, rfl⟩
    | kept | acknowledged | discarded | succeeded | failed | reset => simp [h0] at h1
  case falls =>
    intro h1 h0
    cases hu with
    | succeeded ht => exact .inl ht
    | failed ht => exact .inl ht
    | reset ht => exact .inr ht
    | kept | accepted | acknowledged | discarded => simp [h1] at h0
  case accept =>
    intro w hw hb he
    rw [← hc.busy, (step_of_cmdWrite h hw).busy, writeCmd_accepted hb he, accept_busy]
  case engine =>
    intro ht
    obtain ⟨hb, rfl⟩ | rfl | ⟨e, rfl⟩ := hu.of_engine ht
    · exact hb
    · rfl
    · rfl
  case reset =>
    intro ht
    rw [← hc.busy, step_of_reset h ht, resetBlock_busy]
  case statusWrite =>
    intro d hw
    rw [← hc.busy, (step_of_statusWrite h hw).busy, writeStatus_busy]

/-- Settles O20: of the control updates only a success sets DONE, and only an accept, an acknowledge or a reset clears it. -/
theorem doneFollowsTheCommand : Obligations.DoneFollowsTheCommand := by
  intro s t h
  obtain ⟨u, hu, hc⟩ := step_control h
  refine ⟨?rises, ?success, ?falls, ?accept, ?cleared, ?left, ?reset⟩
  case rises =>
    rw [hc.done, hc.err]
    intro h0 h1
    cases hu with
    | succeeded ht hb => exact ⟨ht, hb, rfl⟩
    | kept | accepted | acknowledged | discarded | failed | reset => simp [h0] at h1
  case success =>
    rw [hc.done, hc.err]
    intro ht hb _ he
    obtain ⟨hb', -⟩ | rfl | ⟨e, rfl⟩ := hu.of_engine ht
    · simp [hb] at hb'
    · rfl
    · simp at he
  case falls =>
    rw [hc.done]
    intro h1 h0
    cases hu with
    | accepted w hw hb he => exact .inr (.inl ⟨w, hw, hb, he⟩)
    | acknowledged d hw => exact .inr (.inr ⟨d, hw, by simpa [h1] using h0⟩)
    | reset ht => exact .inl ht
    | kept | discarded | succeeded | failed => simp [h1] at h0
  case accept =>
    intro w hw hb he
    rw [(step_of_cmdWrite h hw).done, writeCmd_accepted hb he, accept_done]
  case cleared =>
    intro d hw hd
    rw [(step_of_statusWrite h hw).done, writeStatus_done, if_pos hd]
  case left =>
    intro d hw hd
    rw [(step_of_statusWrite h hw).done, writeStatus_done, hd, if_neg Bool.false_ne_true]
  case reset =>
    intro ht
    rw [step_of_reset h ht, resetBlock_done]

/-- Settles O21: of the control updates only a failure sets ERR, and only an acknowledge or a reset clears it; a CMD write meanwhile
is discarded. -/
theorem errorMustBeAcknowledged : Obligations.ErrorMustBeAcknowledged := by
  intro s t h
  obtain ⟨u, hu, hc⟩ := step_control h
  refine ⟨?rises, ?failure, ?falls, ?acknowledge, ?reset, ?blocked⟩
  case rises =>
    rw [hc.err, hc.errCode]
    intro h0 h1
    cases hu with
    | failed ht hb e => exact ⟨ht, hb, e, rfl⟩
    | kept | accepted | acknowledged | discarded | succeeded | reset => simp [h0] at h1
  case failure =>
    rw [hc.err, hc.done]
    intro ht hb _ hd
    obtain ⟨hb', -⟩ | rfl | ⟨e, rfl⟩ := hu.of_engine ht
    · simp [hb] at hb'
    · simp at hd
    · rfl
  case falls =>
    rw [hc.err]
    intro h1 h0
    cases hu with
    | acknowledged d hw => exact .inr ⟨d, hw, by simpa [h1] using h0⟩
    | reset ht => exact .inl ht
    | kept | accepted | discarded | succeeded | failed => simp [h1] at h0
  case acknowledge =>
    intro d hw hd
    have hcode : t.errCode = 0 := by rw [(step_of_statusWrite h hw).errCode, writeStatus_errCode, if_pos hd]
    refine ⟨?_, hcode, by rw [hcode]; rfl⟩
    rw [(step_of_statusWrite h hw).err, writeStatus_err, if_pos hd]
  case reset =>
    intro ht
    rw [step_of_reset h ht, resetBlock_err]
  case blocked =>
    intro w hw he
    have hk := step_of_cmdWrite h hw
    rw [writeCmd_discarded (.inr he)] at hk
    exact ⟨hk.drop, hk.cmdReg, hk.busy, hk.err.trans he, hk.errCode⟩

/-- Settles O23: the discarded writes are `setDrop`, the ignored ones change nothing, and of the control updates only an acknowledge
and a reset clear DROP. -/
theorem discardedWritesOnlySetDrop : Obligations.DiscardedWritesOnlySetDrop := by
  refine ⟨?busy, ?error, ?statusWrite, ?ignored, ?sticky⟩
  case busy =>
    intro s d l hb hl
    rw [busWrite_offsetOf, writeLoc_discarded d hb hl]
    rfl
  case error =>
    intro s d _ he
    rw [busWrite_offsetOf, writeLoc, writeCmd_discarded (.inr he)]
    rfl
  case statusWrite =>
    intro s d
    rw [busWrite_offsetOf, writeLoc, writeStatus_drop]
    cases d.getLsbD 3 <;> simp
  case ignored =>
    intro s d addr ha
    have hi : Ignores addr := by
      rcases ha with h | rfl | rfl | ⟨i, rfl⟩
      · exact .inr (.inl h)
      · exact .inr (.inr (.inl (targetOf_offsetOf _)))
      · exact .inr (.inr (.inr (.inl (targetOf_offsetOf _))))
      · exact .inr (.inr (.inr (.inr ⟨i, targetOf_offsetOf _⟩)))
    rw [busWrite_of_ignores hi]
  case sticky =>
    intro s t h h1 h0
    obtain ⟨u, hu, hc⟩ := step_control h
    rw [hc.drop] at h0
    cases hu with
    | acknowledged d hw => exact .inr ⟨d, hw, by simpa [h1] using h0⟩
    | reset ht => exact .inl ht
    | kept | accepted | discarded | succeeded | failed => simp [h1] at h0

/-- Settles O24: of the control updates only an accept and a reset change CMDREG, so after WIPE it holds the one word of WIPE. -/
theorem cmdRegHoldsLastAcceptedWord : Obligations.CmdRegHoldsLastAcceptedWord := by
  refine ⟨?read, ?accept, ?discard, ?changes, ?wipe, rfl⟩
  case read =>
    intro s
    exact (busRead_offsetOf .cmd s).trans (readLoc_stored (.inr rfl))
  case accept =>
    intro s w hb he
    rw [show busWrite 0x0000 w s = _ from busWrite_offsetOf .cmd w s, writeLoc, writeCmd_accepted hb he, accept_cmdReg]
  case discard =>
    intro s w hd
    rw [show busWrite 0x0000 w s = _ from busWrite_offsetOf .cmd w s, writeLoc, writeCmd_discarded hd, setDrop_cmdReg]
  case changes =>
    intro s t h hne
    obtain ⟨u, hu, hc⟩ := step_control h
    rw [hc.cmdReg] at hne ⊢
    cases hu with
    | accepted w hw hb he => exact .inr ⟨w, hw, hb, he, rfl⟩
    | reset ht => exact .inl ht
    | kept | acknowledged | discarded | succeeded | failed => exact absurd rfl hne
  case wipe =>
    intro s t h ⟨ht, _, hd⟩
    obtain ⟨u, hu, hc⟩ := step_control h
    rw [hc.cmdReg, ← eq_of_decode_wipe hd]
    obtain ⟨-, rfl⟩ | rfl | ⟨e, rfl⟩ := hu.of_engine ht <;> rfl

/-! PRIME, R and SY -/

/-- Settles O30: PRIME is no data, so its read never depends on BUSY, and its write is ignored. -/
theorem primeIsConstant : Obligations.PrimeIsConstant := fun s d =>
  ⟨(busRead_offsetOf .prime s).trans (readLoc_stored (.inr rfl)), busWrite_offsetOf .prime d s, rfl⟩

/-- Settles O34: a step changes R only by a completion with a result, by WIPE or by reset. -/
theorem resultRegisterChangesOnlyByCommand : Obligations.ResultRegisterChangesOnlyByCommand := by
  refine ⟨?read, fun s d => busWrite_offsetOf .r d s, ?changes, ?error, rfl⟩
  case read =>
    intro s hb
    exact (busRead_offsetOf .r s).trans (readLoc_stored (.inl hb))
  case changes =>
    intro s t h hne
    obtain ⟨hr, -⟩ | ⟨i, hc, he⟩ | ht := step_results h
    · exact absurd hr hne
    · cases he with
      | result i hi v h0 hp => exact .inr (.inr ⟨i, hi, hc, rfl, rfl, canonical_toHalf h0 hp⟩)
      | wipe => exact .inr (.inl ⟨hc, rfl⟩)
      | nop | failure | splitDone | splitFailed => exact absurd rfl hne
    · exact .inl ⟨ht, by rw [step_of_reset h ht, resetBlock_r]⟩
  case error =>
    intro s t h ht h0 h1
    obtain ⟨hr, -⟩ | ⟨i, -, he⟩ | hreset := step_results h
    · exact hr
    · cases he with
      | nop | failure | splitDone | splitFailed => rfl
      | result | wipe => simp [h0] at h1
    · simp [ht] at hreset

/-- After a SPLIT that passes its checks, SY holds the polynomial's values mod p in its first entries and the rest as before (R85). -/
theorem readEntry_sy_storeShares (k n : Nat) (s : State) (hn : n ≤ 255) :
    (∀ x, 1 ≤ x → x ≤ n →
      ((readEntry (storeShares k n s).sy (x - 1)).toNat : Int) = polynomial (coefAt s) k x % (Config.prime : Int)) ∧
    ∀ j, n ≤ j → readEntry (storeShares k n s).sy j = readEntry s.sy j := by
  simp only [storeShares_sy, readEntry_writeShares]
  constructor
  · intro x hx hxn
    obtain ⟨h0, hp⟩ := horner_range (coefAt s) k x
    rw [if_pos ⟨by omega, by simp only [Config.arrayDepth]; omega⟩, Nat.sub_add_cancel hx, toNat_toHalf _ h0 hp,
      horner_eq_polynomial]
  · intro j hj
    rw [if_neg fun h => by omega]

/-- Settles O36: a step changes SY only by a SPLIT that succeeds, by WIPE or by reset, and a SPLIT stores the polynomial's values. -/
theorem shareArrayChangesOnlyBySplit : Obligations.ShareArrayChangesOnlyBySplit := by
  refine ⟨?read, fun s i d => busWrite_offsetOf (.entry .sy i) d s, ?split, ?failed, ?changes, ?cleared, allZero_zeroBank⟩
  case read =>
    intro s i hb
    exact (busRead_offsetOf (.entry .sy i) s).trans (readLoc_stored (.inl hb))
  case split =>
    intro s k n hk hkn hn hc
    exact ⟨_, exec_split_of_none (splitError_eq_none hk hkn hc), readEntry_sy_storeShares k n s hn⟩
  case failed =>
    intro s t k n e h he
    rw [exec_split_of_some he] at h
    cases h
    rfl
  case changes =>
    intro s t h hne
    obtain ⟨-, hsy⟩ | ⟨i, hc, he⟩ | ht := step_results h
    · exact absurd hsy hne
    · cases he with
      | splitDone k n => exact .inr (.inr ⟨k, n, hc, rfl⟩)
      | wipe => exact .inr (.inl hc)
      | nop | result | failure | splitFailed => exact absurd rfl hne
    · exact .inl ht
  case cleared =>
    rintro s t h (ht | hc)
    · rw [step_of_reset h ht]
      exact allZero_zeroBank
    · cases step_of_completes h hc with
      | result _ hi => simp [writesR] at hi
      | failure _ hi => simp [writesR] at hi
      | wipe => exact allZero_zeroBank

end Sys2Proof.Machine
end

section
/-! SUPPORT. Facts about the bus that the proofs of 20_memory.md share: the offsets that address no location, the transactions that
change nothing, the reads and stores at a location, and the byte lanes. -/

namespace Sys2Proof.Machine

/-! Offsets -/

theorem targetOf_misaligned {addr : Offset} (h : addr.extractLsb' 0 2 ≠ 0#2) : targetOf addr = .misaligned := by
  have hn : addr.toNat % 4 ≠ 0 := fun hm => h (BitVec.eq_of_toNat_eq (by simpa using hm))
  rw [targetOf, if_pos hn]

theorem targetOf_aligned {addr : Offset} (h : addr.extractLsb' 0 2 = 0#2) : targetOf addr = alignedTarget addr.toNat := by
  have hn : addr.toNat % 4 = 0 := by simpa using congrArg BitVec.toNat h
  rw [targetOf, if_neg (not_not_intro hn)]

/-- The two ranges of offsets that the map reserves (R37, R42). -/
theorem alignedTarget_reserved {n : Nat} (h : 0x0018 ≤ n ∧ n < 0x0400 ∨ 0x1400 ≤ n) : alignedTarget n = .reserved := by
  rcases h with ⟨h1, h2⟩ | h <;> simp (disch := omega) only [alignedTarget, if_neg, if_pos]

/-- A location's offset is aligned, and it is where the map places the location. -/
theorem alignedTarget_of_targetOf {addr : Offset} {l : Loc} (h : targetOf addr = .loc l) :
    addr.toNat % 4 = 0 ∧ alignedTarget addr.toNat = .loc l := by
  unfold targetOf at h
  split at h
  · cases h
  · rename_i hn
    exact ⟨not_not.mp hn, h⟩

theorem offsetOf_lt (l : Loc) : (offsetOf l).toNat < 0x1400 := by
  obtain ⟨-, h⟩ := alignedTarget_of_targetOf (targetOf_offsetOf l)
  by_contra hn
  rw [alignedTarget_reserved (.inr (not_lt.mp hn))] at h
  cases h

/-! Transactions that change nothing -/

theorem busRead_misaligned {addr : Offset} (h : targetOf addr = .misaligned) (s : State) : busRead addr s = (.error, s) := by
  simp only [busRead, h]

theorem busWrite_misaligned {addr : Offset} (h : targetOf addr = .misaligned) (d : Word) (s : State) :
    busWrite addr d s = (.error, s) := by
  simp only [busWrite, h]

theorem busRead_reserved {addr : Offset} (h : targetOf addr = .reserved) (s : State) : busRead addr s = (.okay 0, s) := by
  simp only [busRead, h]

theorem busWrite_reserved {addr : Offset} (h : targetOf addr = .reserved) (d : Word) (s : State) :
    busWrite addr d s = (.okay 0, s) := by
  simp only [busWrite, h]

/-! Reads and writes at a location -/

theorem busRead_stored {l : Loc} {s : State} (h : s.busy = false ∨ isData l = false) :
    busRead (offsetOf l) s = (.okay (locWord s l), s) :=
  (busRead_offsetOf l s).trans (readLoc_stored h)

/-- A data location read while a command is pending returns the next free value (R40). -/
theorem readLoc_free {l : Loc} {s : State} (hb : s.busy = true) (hl : isData l = true) :
    readLoc l s = (.okay (Config.freeRead s.draws), { s with draws := s.draws + 1 }) := by
  simp [readLoc, hb, hl]

theorem writeData_stored {store : State → State} {s : State} (h : s.busy = false) : writeData store s = store s := by
  simp [writeData, h]

theorem lowHalf_eq_extractLsb' (d : Word) : lowHalf d = d.extractLsb' 0 16 := BitVec.setWidth_eq_extractLsb' (by decide)

/-- A host write stores the low half of the word in the entry (R41). -/
theorem busWrite_entry_stored {bank : BankName} (hn : bank ≠ .sy) (i : Fin Config.arrayDepth) (d : Word) {s : State}
    (hb : s.busy = false) : busWrite (offsetOf (.entry bank i)) d s =
      (.okay 0, setBank s bank (writeEntry (getBank s bank) i.val (d.extractLsb' 0 16))) := by
  rw [busWrite_offsetOf, writeLoc_entry hn, writeData_stored hb, storeEntry, lowHalf_eq_extractLsb']

/-- Writing 1 clears, bit by bit (R41). -/
theorem writeStatus_eq (d : Word) (s : State) : writeStatus d s = { s with
    done := s.done && !d.getLsbD 1, err := s.err && !d.getLsbD 2,
    errCode := if d.getLsbD 2 then 0 else s.errCode, drop := s.drop && !d.getLsbD 3 } := by
  have clears (b old : Bool) : (if b then false else old) = (old && !b) := by cases b <;> simp
  simp only [writeStatus, clears]

/-! Byte lanes -/

theorem wordOfLanes_byteLane (w : Word) : wordOfLanes (byteLane w 0) (byteLane w 1) (byteLane w 2) (byteLane w 3) = w := by
  show w.extractLsb' 24 8 ++ w.extractLsb' 16 8 ++ w.extractLsb' 8 8 ++ w.extractLsb' 0 8 = w
  simp (disch := rfl) only [BitVec.extractLsb'_append_extractLsb'_eq_extractLsb', BitVec.extractLsb'_eq_self]

/-- The two low lanes of a stored value's word are the value's bytes. -/
theorem lowLanes_zext32 (y : Half) : [byteLane (zext32 y) 0, byteLane (zext32 y) 1] = yBytes y := by
  have lane (k : Nat) (hk : k + 8 ≤ 16) : (zext32 y).extractLsb' k 8 = y.extractLsb' k 8 := by
    apply BitVec.eq_of_getLsbD_eq
    intro j hj
    have : k + j < 32 := by omega
    simp [zext32, hj, this]
  exact congrArg₂ (fun lo hi => [lo, hi]) (lane 0 (by decide)) (lane 8 (by decide))

/-- The offset of a location's byte lane, as a number. -/
theorem toNat_offsetOf_add_lane (l : Loc) (lane : Fin 4) :
    (offsetOf l + BitVec.ofNat 13 lane.val).toNat = (offsetOf l).toNat + lane.val := by
  have h := offsetOf_lt l
  simp only [BitVec.toNat_add, BitVec.toNat_ofNat]
  omega

/-- An offset leads back from its host address, whatever BASE is (R36). -/
theorem windowOffset_add_toNat (base : Nat) (addr : Offset) : windowOffset base (base + addr.toNat) = some addr := by
  have h := addr.isLt
  rw [windowOffset, if_pos (by simp only [Config.windowBytes]; omega), Nat.add_sub_cancel_left, BitVec.ofNat_toNat,
    BitVec.setWidth_eq]

/-- The window's byte at a location's lane is that lane of the location's word (R45). -/
theorem windowByte_lane (s : State) (l : Loc) (lane : Fin 4) :
    windowByte s (offsetOf l + BitVec.ofNat 13 lane.val) = byteLane (locWord s l) lane := by
  obtain ⟨hal, ht⟩ := alignedTarget_of_targetOf (targetOf_offsetOf l)
  have hword : ((offsetOf l).toNat + lane.val) / 4 * 4 = (offsetOf l).toNat := by omega
  have hlane : Fin.ofNat 4 ((offsetOf l).toNat + lane.val) = lane := by
    apply Fin.ext
    simp only [Fin.ofNat]
    omega
  simp only [windowByte, toNat_offsetOf_add_lane, hword, ht, hlane]

end Sys2Proof.Machine
end

section
/-! PROOFS. The statements of the family 20_memory.md. -/

namespace Sys2Proof.Machine

/-- Settles O26: a location that is no data, or any location while no command is pending, reads as its stored word; a
data location read while one is pending returns a free value. -/
theorem readsReturnTheLocation : Obligations.ReadsReturnTheLocation := by
  intro s
  refine ⟨busRead_stored (.inr rfl), busRead_stored (.inr rfl), busRead_stored (.inr rfl),
    fun addr h => busRead_reserved h s, ?idle, ?pending⟩
  case idle =>
    intro hb
    have stored (l : Loc) := busRead_stored (l := l) (.inl hb)
    exact ⟨stored .a, stored .b, stored .r, fun i =>
      ⟨stored (.entry .coef i), stored (.entry .px i), stored (.entry .py i), stored (.entry .sy i)⟩⟩
  case pending =>
    intro hb l hl
    have hd : isData l = true := by rcases hl with rfl | rfl | rfl | ⟨bank, i, rfl⟩ <;> rfl
    exact ⟨_, _, (busRead_offsetOf l s).trans (readLoc_free hb hd)⟩

/-- Settles O27: each location's write is the accept, the STATUS write, the discard, one store, or nothing. -/
theorem writesChangeTheLocation : Obligations.WritesChangeTheLocation := by
  intro s d
  refine ⟨?discarded, ?accepted, ?status, ?pending, ?idle, busWrite_offsetOf .r d s, busWrite_offsetOf .prime d s,
    fun i => busWrite_offsetOf (.entry .sy i) d s, fun addr h => busWrite_reserved h d s⟩
  case discarded =>
    intro h
    rw [busWrite_offsetOf, writeLoc, writeCmd_discarded h]
    rfl
  case accepted =>
    intro hb he
    rw [busWrite_offsetOf, writeLoc, writeCmd_accepted hb he]
    rfl
  case status =>
    rw [busWrite_offsetOf, writeLoc, writeStatus_eq]
  case pending =>
    intro hb l hl
    rw [busWrite_offsetOf, writeLoc_discarded d hb (.inr hl)]
    rfl
  case idle =>
    intro hb
    refine ⟨?_, ?_, fun i => ⟨busWrite_entry_stored (by decide) i d hb, busWrite_entry_stored (by decide) i d hb,
      busWrite_entry_stored (by decide) i d hb⟩⟩
    · rw [busWrite_offsetOf, writeLoc, writeData_stored hb, storeA, lowHalf_eq_extractLsb']
    · rw [busWrite_offsetOf, writeLoc, writeData_stored hb, storeB, lowHalf_eq_extractLsb']

/-- Settles O29: bits 1:0 decide between a misaligned offset and the address map, which reserves both ranges. -/
theorem misalignedAndReservedOffsets : Obligations.MisalignedAndReservedOffsets := by
  refine ⟨?misaligned, rfl, ?reserved⟩
  case misaligned =>
    intro s addr d h
    have ht := targetOf_misaligned h
    exact ⟨busRead_misaligned ht s, busWrite_misaligned ht d s⟩
  case reserved =>
    intro s addr d h hr
    have ht : targetOf addr = .reserved :=
      (targetOf_aligned h).trans (alignedTarget_reserved (hr.imp_left fun ⟨h1, h2⟩ => ⟨h1, by omega⟩))
    exact ⟨busRead_reserved ht s, busWrite_reserved ht d s⟩

/-- Settles O31: a location's offset is a multiple of 4, so adding a lane below 4 stays within its word. -/
theorem busLanesAreLittleEndian : Obligations.BusLanesAreLittleEndian := by
  refine ⟨fun w => ⟨rfl, rfl, rfl, rfl, wordOfLanes_byteLane w⟩, ?window, fun s i => ⟨lowLanes_zext32 _, lowLanes_zext32 _⟩⟩
  case window =>
    intro base s l lane
    refine ⟨?_, windowByte_lane s l lane⟩
    rw [Nat.add_assoc, ← toNat_offsetOf_add_lane, windowOffset_add_toNat]

end Sys2Proof.Machine
end

section
/-! SUPPORT. What the decoder can answer, said once: a word that decodes carries the fields of its command and reserved bits 0. -/

namespace Sys2Proof

open Sys2Proof.Machine

/-- The fields of `w` are those of the command `i`, laid out as R53 and R57 lay them out, and `i` is one a word can carry. -/
structure CarriesFields (w : Word) (i : Instr) : Prop where
  rsv1 : rsv1Of w = 0
  p2 : p2Of w = paramField i.count2
  p1 : p1Of w = paramField i.count1
  rsv0 : rsv0Of w = 0
  op : opOf w = opcode i
  wellFormed : i.WellFormed

@[simp] theorem paramField_none : paramField none = 0 := rfl

@[simp] theorem paramField_toNat (x : BitVec 8) : paramField (some x.toNat) = x := by
  simp [paramField]

@[simp] theorem countFits_toNat (x : BitVec 8) : countFits (some x.toNat) = true :=
  decide_eq_true (Nat.le_of_lt_succ x.isLt)

theorem decodeEval_eq_ok_iff {w : Word} {i : Instr} :
    decodeEval w = .ok i ↔ p2Of w = 0 ∧ .eval (p1Of w).toNat = i := by
  unfold decodeEval
  split <;> simp_all

theorem decode_eq_ok_iff {w : Word} {i : Instr} :
    decode w = .ok i ↔ rsv1Of w = 0 ∧ rsv0Of w = 0 ∧ decodeOp w = .ok i := by
  unfold decode
  split
  · simp_all
  · split <;> simp_all

theorem carriesFields_of_decodeOp {w : Word} {i : Instr} (hr1 : rsv1Of w = 0) (hr0 : rsv0Of w = 0)
    (h : decodeOp w = .ok i) : CarriesFields w i := by
  unfold decodeOp at h
  split at h <;> rename_i hop
  case h_7 =>
    obtain ⟨h2, rfl⟩ := decodeEval_eq_ok_iff.mp h
    exact ⟨hr1, h2, (paramField_toNat _).symm, hr0, BitVec.eq_of_toNat_eq hop, countFits_toNat _, rfl⟩
  case h_8 | h_9 =>
    cases h
    exact ⟨hr1, (paramField_toNat _).symm, (paramField_toNat _).symm, hr0, BitVec.eq_of_toNat_eq hop,
      countFits_toNat _, countFits_toNat _⟩
  case h_11 => cases h
  all_goals
    obtain ⟨h1, h2, rfl⟩ := decodePlain_eq_ok_iff.mp h
    exact ⟨hr1, h2, h1, hr0, BitVec.eq_of_toNat_eq hop, rfl, rfl⟩

/-- What a successful decode says of the word (R61). -/
theorem carriesFields_of_decode {w : Word} {i : Instr} (h : decode w = .ok i) : CarriesFields w i := by
  obtain ⟨hr1, hr0, hop⟩ := decode_eq_ok_iff.mp h
  exact carriesFields_of_decodeOp hr1 hr0 hop

theorem CarriesFields.encode_eq {w : Word} {i : Instr} (h : CarriesFields w i) : encode i = w := by
  calc encode i = rsv1Of w ++ p2Of w ++ p1Of w ++ rsv0Of w ++ opOf w := by
        rw [h.rsv1, h.p2, h.p1, h.rsv0, h.op]
        rfl
    _ = w := append_fields w

/-- A word that carries the fields of no command is rejected. -/
theorem decode_error_of_not_carriesFields {w : Word} (h : ∀ i, ¬ CarriesFields w i) : ∃ e, decode w = .error e := by
  cases hd : decode w with
  | error e => exact ⟨e, rfl⟩
  | ok i => exact absurd (carriesFields_of_decode hd) (h i)

/-! The opcodes of R57 -/

theorem opcode_toNat_le (i : Instr) : (opcode i).toNat ≤ 9 := by
  cases i <;> simp [opcode]

theorem CarriesFields.opOf_le {w : Word} {i : Instr} (h : CarriesFields w i) : (opOf w).toNat ≤ 9 :=
  h.op ▸ opcode_toNat_le i

/-- The commands that use neither parameter field (R58). -/
theorem counts_eq_none_of_opcode {i : Instr} (h : (opcode i).toNat ≤ 5 ∨ (opcode i).toNat = 9) :
    i.count1 = none ∧ i.count2 = none := by
  cases i with
  | eval | split | interp => simp [opcode] at h
  | nop | add | sub | mul | inv | div | wipe => exact ⟨rfl, rfl⟩

/-- EVAL does not use P2 (R58). -/
theorem count2_eq_none_of_opcode {i : Instr} (h : (opcode i).toNat = 6) : i.count2 = none := by
  cases i with
  | eval => rfl
  | nop | add | sub | mul | inv | div | split | interp | wipe => simp [opcode] at h

/-- Each assigned OP is the OP of one of the ten commands' words (R54). -/
theorem exists_command_of_opcode : ∀ op : BitVec 4, op.toNat ≤ 9 →
    ∃ i ∈ [.nop, .add, .sub, .mul, .inv, .div, .eval 0, .split 0 0, .interp 0 0, .wipe],
      decode (encode i) = .ok i ∧ opOf (encode i) = op := by
  decide

end Sys2Proof
end

section
/-! PROOFS. Statements of the family 30_encoding.md. -/

namespace Sys2Proof

/-- Settles O2: a legal word carries the fields of its command, so an unused field is 0 and the fields put together are the word. -/
theorem legalWordHasOneSpelling : Obligations.LegalWordHasOneSpelling := by
  refine ⟨?plain, ?eval, ?spelling⟩
  case plain =>
    intro w hop hp
    refine decode_error_of_not_carriesFields fun i hf => ?_
    obtain ⟨h1, h2⟩ := counts_eq_none_of_opcode (hf.op ▸ hop)
    rcases hp with hp | hp
    · exact hp (by rw [hf.p1, h1, paramField_none])
    · exact hp (by rw [hf.p2, h2, paramField_none])
  case eval =>
    intro w hop hp
    refine decode_error_of_not_carriesFields fun i hf => hp ?_
    rw [hf.p2, count2_eq_none_of_opcode (hf.op ▸ hop), paramField_none]
  case spelling =>
    intro w i hd
    have hf := carriesFields_of_decode hd
    exact ⟨hf.wellFormed, hf.encode_eq⟩

/-- Settles O4: a legal word carries its command's OP, which is at most 9, and reserved bits 0. -/
theorem reservedBitsAndOpcodesAreIllegal : Obligations.ReservedBitsAndOpcodesAreIllegal := by
  refine ⟨?selects, ?assigned, ?reservedOp, ?reservedBits⟩
  case selects =>
    intro w i hd
    have hf := carriesFields_of_decode hd
    exact ⟨hf.op.symm, hf.opOf_le⟩
  case assigned =>
    intro op hop
    obtain ⟨i, -, hd, ho⟩ := exists_command_of_opcode op hop
    exact ⟨encode i, i, hd, ho⟩
  case reservedOp =>
    intro w hop
    exact decode_error_of_not_carriesFields fun i hf => absurd hf.opOf_le (Nat.not_le.mpr hop)
  case reservedBits =>
    intro w hr
    exact decode_error_of_not_carriesFields fun i hf => hr.elim (absurd hf.rsv0) (absurd hf.rsv1)

end Sys2Proof
end

section
/-! SUPPORT. Facts that the proofs of 40_field_arithmetic.md share: the one word of a command, the extended Euclidean loop, the
inverse mod p, and what a field command answers. -/

namespace Sys2Proof.Machine

/-- A command has one word: a word decodes to the command exactly when it is the word `c` that does. -/
theorem decode_eq_ok_iff_eq_word {c : Word} {i : Instr} (hc : decode c = .ok i) (w : Word) : decode w = .ok i ↔ w = c := by
  constructor
  · intro hw
    exact (carriesFields_of_decode hw).encode_eq.symm.trans (carriesFields_of_decode hc).encode_eq
  · rintro rfl
    exact hc

/-! The extended Euclidean loop (R75) -/

/-- The loop keeps `a*s + b*t = r` for its two rows and the gcd of their remainders; `r` falls at every turn, so a fuel above it lets
the loop end. -/
theorem extendedGcdLoop_bezout (a b : Int) {fuel oldR r : Nat} {oldS s oldT t : Int} (hfuel : r < fuel)
    (hold : a * oldS + b * oldT = oldR) (hrow : a * s + b * t = r) :
    a * (extendedGcdLoop fuel oldR r oldS s oldT t).1 + b * (extendedGcdLoop fuel oldR r oldS s oldT t).2 = Nat.gcd oldR r := by
  induction fuel generalizing oldR r oldS s oldT t with
  | zero => omega
  | succ fuel ih =>
    rw [extendedGcdLoop]
    split
    case isTrue h0 =>
      rw [Int.natCast_eq_zero.mp h0, Nat.gcd_zero_right, hold]
    case isFalse h0 =>
      have hpos : 0 < r := by omega
      have hrem : (oldR : Int) - oldR / r * r = (oldR % r : Nat) := by
        rw [Int.natCast_mod, Int.emod_def, mul_comm]
      have hnext : a * (oldS - oldR / r * s) + b * (oldT - oldR / r * t) = (oldR % r : Nat) := by
        rw [← hrem, ← hold, ← hrow]
        ring
      have hlt : oldR % r < fuel := by
        have := Nat.mod_lt oldR hpos
        omega
      rw [hrem, ih hlt hrow hnext, Nat.gcd_comm, ← Nat.gcd_rec, Nat.gcd_comm]

theorem extendedGcd_bezout (a b : Nat) :
    (a : Int) * (extendedGcd a b).1 + (b : Int) * (extendedGcd a b).2 = Nat.gcd a b :=
  extendedGcdLoop_bezout a b (Nat.lt_succ_self b) (by ring) (by ring)

/-! The inverse mod p (R76) -/

/-- The field modulus is a prime (R4). -/
theorem prime_prime : Nat.Prime Config.prime := by norm_num

/-- Reducing a factor first changes nothing in a product mod p. -/
theorem modp_modp_mul (a b : Int) : modp (modp a * b) = modp (a * b) := (Int.mod_modEq a _).mul_right b

theorem modp_mul_modp (a b : Int) : modp (a * modp b) = modp (a * b) := (Int.mod_modEq b _).mul_left a

/-- What has an inverse is not 0 mod p. -/
theorem modp_ne_zero_of_mul {a v : Int} (h : modp (a * v) = 1) : modp a ≠ 0 := by
  intro h0
  rw [← modp_modp_mul, h0, zero_mul] at h
  exact absurd h (by decide)

/-- The residue is below the prime p and not 0, so it is prime to p, and its Bézout coefficient is an inverse. -/
theorem modp_mul_inv {a : Int} (h : modp a ≠ 0) : modp (a * inv a) = 1 := by
  obtain ⟨n, hn⟩ := Int.eq_ofNat_of_zero_le (modp_nonneg a)
  have hlt := modp_lt a
  have hgcd : Nat.gcd n Config.prime = 1 :=
    (Nat.coprime_of_lt_prime (by omega) (by omega) prime_prime).symm
  have hbez := extendedGcd_bezout n Config.prime
  rw [hgcd] at hbez
  calc modp (a * inv a)
      = modp (n * (extendedGcd n Config.prime).1) := by
        rw [inv, modp_mul_modp, ← modp_modp_mul, hn, Int.toNat_natCast]
    _ = modp (n * (extendedGcd n Config.prime).1 + Config.prime * (extendedGcd n Config.prime).2) :=
        (Int.add_mul_emod_self_left _ _ _).symm
    _ = 1 := by rw [hbez]; rfl

/-- Any two inverses of the same integer are congruent. -/
theorem modp_eq_inv {a v : Int} (h : modp (a * v) = 1) : modp v = inv a := by
  calc modp v = modp (modp (a * inv a) * v) := by rw [modp_mul_inv (modp_ne_zero_of_mul h), one_mul]
    _ = modp (modp (a * v) * inv a) := by rw [modp_modp_mul, modp_modp_mul, mul_right_comm]
    _ = inv a := by rw [h, one_mul, modp_of_lt _ (inv_range a).1 (inv_range a).2]

theorem inv_pos {a : Int} (h : modp a ≠ 0) : 1 ≤ inv a := by
  have hne : inv a ≠ 0 := by
    intro h0
    have h1 := modp_mul_inv h
    rw [h0, mul_zero] at h1
    exact absurd h1 (by decide)
  have := (inv_range a).1
  omega

/-- The inverse depends only on the residue. -/
theorem inv_congr {a b : Int} (h : modp a = modp b) : inv a = inv b := by
  rw [inv, h, inv]

/-- A quotient times its denominator is the numerator mod p. -/
theorem modp_quotient_mul (a : Int) {b : Int} (h : modp b ≠ 0) : modp (modp (a * inv b) * b) = modp a := by
  calc modp (modp (a * inv b) * b) = modp (a * modp (b * inv b)) := by
        rw [modp_modp_mul, modp_mul_modp, mul_assoc, mul_comm b]
    _ = modp a := by rw [modp_mul_inv h, mul_one]

theorem modp_natCast (n : Nat) : modp n = (n % Config.prime : Nat) := (Int.natCast_mod n _).symm

/-- The only 16-bit values congruent to 0 (R77). -/
theorem modp_value_eq_zero_iff (v : Half) : modp (value v) = 0 ↔ v = 0 ∨ v = 65521 := by
  have hlt := v.isLt
  have h0 : v = 0 ↔ v.toNat = 0 := BitVec.toNat_inj.symm
  have hp : v = 65521 ↔ v.toNat = 65521 := BitVec.toNat_inj.symm
  rw [value, modp_natCast, h0, hp, Config.prime]
  omega

theorem modp_value_ne_zero {v : Half} (h0 : v ≠ 0) (hp : v ≠ 65521) : modp (value v) ≠ 0 :=
  fun h => ((modp_value_eq_zero_iff v).mp h).elim h0 hp

/-! What the field commands answer (R71) -/

/-- A success with a residue: R is the residue, and nothing else but STATUS moves. -/
theorem succeedWith_modp_spec (a : Int) (s : State) :
    ∃ t, succeedWith (modp a) s = .next t ∧ (t.r.toNat : Int) = modp a ∧ Succeeded s t ∧ KeepsAllButR s t :=
  succeedWith_spec (modp a) s (modp_nonneg a) (modp_lt a)

theorem exec_inv_of_ne {s : State} (h : modp (operandA s) ≠ 0) : exec .inv s = succeedWith (inv (operandA s)) s := if_neg h

theorem exec_inv_of_eq {s : State} (h : modp (operandA s) = 0) : exec .inv s = failWith .notInvertible s := if_pos h

theorem exec_div_of_ne {s : State} (h : modp (operandB s) ≠ 0) :
    exec .div s = succeedWith (modp (operandA s * inv (operandB s))) s := if_neg h

theorem exec_div_of_eq {s : State} (h : modp (operandB s) = 0) : exec .div s = failWith .notInvertible s := if_pos h

/-- NOT_INVERTIBLE is code 5 of class 2, and a failure with it writes only STATUS (R77, R78, R99). -/
theorem failWith_notInvertible_spec (s : State) :
    ∃ t, failWith .notInvertible s = .next t ∧ Failed .notInvertible s t ∧ t.errCode = 5 ∧ errorClass t.errCode = 2 ∧
      KeepsAllData s t := by
  obtain ⟨t, ht, ⟨hbusy, herr, hcode, hkept⟩, hk⟩ := failWith_spec .notInvertible s
  exact ⟨t, ht, ⟨hbusy, herr, hcode, hkept⟩, hcode, hcode ▸ rfl, hk⟩

/-- Two states in which a command ends alike: with the same result, or with the same error. -/
inductive SameEnding (i : Instr) (s u : State) : Prop where
  | succeed (v : Int) (hs : exec i s = succeedWith v s) (hu : exec i u = succeedWith v u)
  | fail (e : ErrorCode) (hs : exec i s = failWith e s) (hu : exec i u = failWith e u)

/-- What R and ERR are where a command ends alike. -/
theorem SameEnding.same_r_and_err {i : Instr} {s u : State} (h : SameEnding i s u) (hr : u.r = s.r) :
    ∃ t v, exec i s = .next t ∧ exec i u = .next v ∧ v.r = t.r ∧ (u.err = s.err → v.err = t.err) := by
  cases h with
  | succeed v hs hu => exact ⟨_, _, hs, hu, rfl, id⟩
  | fail e hs hu => exact ⟨_, _, hs, hu, hr, fun _ => rfl⟩

section Congruent
variable {s u : State} (ha : modp (operandA s) = modp (operandA u)) (hb : modp (operandB s) = modp (operandB u))
include ha

theorem sameEnding_inv : SameEnding .inv s u := by
  by_cases h : modp (operandA s) = 0
  · exact .fail _ (exec_inv_of_eq h) (exec_inv_of_eq (ha ▸ h))
  · exact .succeed _ (exec_inv_of_ne h) (inv_congr ha ▸ exec_inv_of_ne (ha ▸ h))

include hb

theorem sameEnding_add : SameEnding .add s u :=
  .succeed (modp (operandA s + operandB s)) rfl (by rw [← modp_add, ha, hb, modp_add]; rfl)

theorem sameEnding_sub : SameEnding .sub s u :=
  .succeed (modp (operandA s - operandB s)) rfl (by rw [← modp_sub, ha, hb, modp_sub]; rfl)

theorem sameEnding_mul : SameEnding .mul s u :=
  .succeed (modp (operandA s * operandB s)) rfl (by rw [← modp_mul, ha, hb, modp_mul]; rfl)

theorem sameEnding_div : SameEnding .div s u := by
  by_cases h : modp (operandB s) = 0
  · exact .fail _ (exec_div_of_eq h) (exec_div_of_eq (hb ▸ h))
  · have hq : modp (operandA s * inv (operandB s)) = modp (operandA u * inv (operandB u)) := by
      rw [inv_congr hb, ← modp_modp_mul, ha, modp_modp_mul]
    exact .succeed _ (exec_div_of_ne h) (hq ▸ exec_div_of_ne (hb ▸ h))

end Congruent

end Sys2Proof.Machine
end

section
/-! PROOFS. The statements of the family 40_field_arithmetic.md. -/

namespace Sys2Proof.Machine

/-! The arithmetic -/

/-- Settles O52: the loop's invariant, at the two rows it begins with. -/
theorem extendedGcdIsBezout : Obligations.ExtendedGcdIsBezout := fun a b _ => extendedGcd_bezout a b

/-- Settles O51: p is prime, so the Bézout coefficient is an inverse, and two inverses are congruent. -/
theorem inverseIsUnique : Obligations.InverseIsUnique := by
  refine ⟨?inverse, fun _ => rfl, by decide⟩
  case inverse =>
    intro a ha
    have hlt := (inv_range a).2
    refine ⟨inv_pos ha, by omega, modp_mul_inv ha, fun r h1 hp hr => ?_⟩
    exact (modp_of_lt r (by omega) (by omega)).symm.trans (modp_eq_inv hr)

/-! The commands -/

/-- Settles O39: ADD succeeds with the residue of the sum. -/
theorem addIsModularSum : Obligations.AddIsModularSum := by
  refine ⟨decode_eq_ok_iff_eq_word (by decide), fun s => ?_⟩
  obtain ⟨t, ht, hr, hs, hk⟩ := succeedWith_modp_spec (operandA s + operandB s) s
  exact ⟨t, ht, Int.natCast_inj.mp (hr.trans (modp_natCast (s.a.toNat + s.b.toNat))), hs, hk⟩

/-- Settles O40: SUB succeeds with the residue of the difference. -/
theorem subIsModularDifference : Obligations.SubIsModularDifference :=
  ⟨decode_eq_ok_iff_eq_word (by decide), fun s => succeedWith_modp_spec (operandA s - operandB s) s⟩

/-- Settles O41: MUL succeeds with the residue of the product. -/
theorem mulIsModularProduct : Obligations.MulIsModularProduct := by
  refine ⟨decode_eq_ok_iff_eq_word (by decide), fun s => ?_⟩
  obtain ⟨t, ht, hr, hs, hk⟩ := succeedWith_modp_spec (operandA s * operandB s) s
  exact ⟨t, ht, Int.natCast_inj.mp (hr.trans (modp_natCast (s.a.toNat * s.b.toNat))), hs, hk⟩

/-- Settles O42: 0 and 65521 are the only values of A congruent to 0, and every other A has its inverse. -/
theorem invIsTheFieldInverse : Obligations.InvIsTheFieldInverse := by
  refine ⟨decode_eq_ok_iff_eq_word (by decide), ?success, ?failure⟩
  case success =>
    intro s h0 hp
    have ha : modp (operandA s) ≠ 0 := modp_value_ne_zero h0 hp
    have hpos := inv_pos ha
    obtain ⟨hge, hlt⟩ := inv_range (operandA s)
    obtain ⟨t, ht, hr, hs, hk⟩ := succeedWith_spec (inv (operandA s)) s hge hlt
    have hmul : modp ((s.a.toNat * t.r.toNat : Nat) : Int) = 1 := by
      rw [Nat.cast_mul, hr]
      exact modp_mul_inv ha
    exact ⟨t, (exec_inv_of_ne ha).trans ht, by omega, by omega,
      Int.natCast_inj.mp ((modp_natCast _).symm.trans hmul), hs, hk⟩
  case failure =>
    intro s h
    rw [exec_inv_of_eq ((modp_value_eq_zero_iff s.a).mpr h)]
    exact failWith_notInvertible_spec s

/-- Settles O43: 0 and 65521 are the only values of B congruent to 0, and for every other B all inverses give the same quotient. -/
theorem divIsModularQuotient : Obligations.DivIsModularQuotient := by
  refine ⟨decode_eq_ok_iff_eq_word (by decide), ?success, ?failure⟩
  case success =>
    intro s h0 hp
    have hb : modp (operandB s) ≠ 0 := modp_value_ne_zero h0 hp
    obtain ⟨t, ht, hr, hs, hk⟩ := succeedWith_modp_spec (operandA s * inv (operandB s)) s
    have hlt := modp_lt (operandA s * inv (operandB s))
    refine ⟨t, (exec_div_of_ne hb).trans ht, by omega, fun v hv => ?quotient, ?back, hs, hk⟩
    case quotient =>
      have hinv : modp (operandB s * v) = 1 := (modp_natCast (s.b.toNat * v)).trans (congrArg Nat.cast hv)
      apply Int.natCast_inj.mp
      rw [hr, ← modp_eq_inv hinv, modp_mul_modp]
      exact modp_natCast (s.a.toNat * v)
    case back =>
      apply Int.natCast_inj.mp
      rw [← modp_natCast, ← modp_natCast, Nat.cast_mul, hr]
      exact modp_quotient_mul (operandA s) hb
  case failure =>
    intro s h
    rw [exec_div_of_eq ((modp_value_eq_zero_iff s.b).mpr h)]
    exact failWith_notInvertible_spec s

/-- Settles O53: the library's Euclidean remainder has (a), and (b) is the cancelled quotient, since DIV keeps B. -/
theorem trueModuloAndDivTimesDenominator : Obligations.TrueModuloAndDivTimesDenominator := by
  refine ⟨fun a b hb => ⟨Int.emod_nonneg a hb.ne', Int.emod_lt_of_pos a hb, Int.dvd_self_sub_emod⟩, fun s hs => ?_⟩
  have hb : modp (operandB s) ≠ 0 := fun h => hs (Int.natCast_inj.mp ((modp_natCast _).symm.trans h))
  obtain ⟨t, ht, hr, -, ⟨-, -, hkb, -⟩, -⟩ := succeedWith_modp_spec (operandA s * inv (operandB s)) s
  obtain ⟨u, hu, hur, -⟩ := succeedWith_modp_spec (value t.r * value t.b) { t with a := t.r }
  refine ⟨t, u, (exec_div_of_ne hb).trans ht, hu, Int.natCast_inj.mp ?_⟩
  rw [hur, value, hr, hkb, ← modp_natCast]
  exact modp_quotient_mul (operandA s) hb

/-- Settles O54: congruent operands make each of the five commands end alike. -/
theorem fieldCommandsSeeResiduesOnly : Obligations.FieldCommandsSeeResiduesOnly := by
  intro i s u hi hr hsa hsb
  have ha : modp (operandA s) = modp (operandA u) := by
    rw [operandA, operandA, value, value, modp_natCast, modp_natCast, hsa]
  have hb : modp (operandB s) = modp (operandB u) := by
    rw [operandB, operandB, value, value, modp_natCast, modp_natCast, hsb]
  refine SameEnding.same_r_and_err ?_ hr
  rcases hi with rfl | rfl | rfl | rfl | rfl
  · exact sameEnding_add ha hb
  · exact sameEnding_sub ha hb
  · exact sameEnding_mul ha hb
  · exact sameEnding_inv ha
  · exact sameEnding_div ha hb

end Sys2Proof.Machine
end

section
/-! SUPPORT. The word of a command as a number: a word decodes to a command exactly when it is the number R57 gives for it. -/

namespace Sys2Proof

open Sys2Proof.Machine

theorem toNat_paramField {c : Option Nat} (h : countFits c = true) : (paramField c).toNat = c.getD 0 := by
  cases c with
  | none => rfl
  | some n =>
    have hn : n ≤ 255 := of_decide_eq_true h
    simp only [paramField, Option.getD_some, BitVec.toNat_ofNat]
    omega

/-- The fields of a command's word are those it was put together from. -/
theorem carriesFields_encode {i : Instr} (h : i.WellFormed) : CarriesFields (encode i) i := by
  constructor
  case wellFormed => exact h
  all_goals
    simp (disch := decide) only [encode, rsv1Of, p2Of, p1Of, rsv0Of, opOf, BitVec.extractLsb'_append_eq_of_le,
      BitVec.extractLsb'_append_eq_right, Nat.reduceSub]
  case rsv1 | rsv0 => rfl

/-- A word that carries the fields of a command decodes to it (R61). -/
theorem decode_of_carriesFields {w : Word} {i : Instr} (h : CarriesFields w i) : decode w = .ok i := by
  obtain ⟨hr1, h2, h1, hr0, hop, hfit1, hfit2⟩ := h
  have hk : (p1Of w).toNat = i.count1.getD 0 := h1 ▸ toNat_paramField hfit1
  have hn : (p2Of w).toNat = i.count2.getD 0 := h2 ▸ toNat_paramField hfit2
  refine decode_eq_ok_iff.mpr ⟨hr1, hr0, ?_⟩
  cases i with
  | nop | add | sub | mul | inv | div | wipe => simpa [decodeOp, hop, opcode, decodePlain_eq_ok_iff] using ⟨h1, h2⟩
  | eval => simpa [decodeOp, hop, opcode, decodeEval_eq_ok_iff] using ⟨h2, hk⟩
  | split | interp => simpa [decodeOp, hop, opcode] using ⟨hk, hn⟩

theorem toNat_eq_fields (w : Word) : w.toNat = (rsv1Of w).toNat * 2 ^ 24 + (p2Of w).toNat * 2 ^ 16 + (p1Of w).toNat * 2 ^ 8 +
    (rsv0Of w).toNat * 2 ^ 4 + (opOf w).toNat := by
  have := w.isLt
  simp only [rsv1Of, p2Of, p1Of, rsv0Of, opOf, BitVec.extractLsb'_toNat, Nat.shiftRight_eq_div_pow]
  omega

theorem CarriesFields.toNat_eq {w : Word} {i : Instr} (h : CarriesFields w i) :
    w.toNat = i.count2.getD 0 * 2 ^ 16 + i.count1.getD 0 * 2 ^ 8 + (opcode i).toNat := by
  obtain ⟨hr1, h2, h1, hr0, hop, hfit1, hfit2⟩ := h
  rw [toNat_eq_fields, hr1, h2, h1, hr0, hop, toNat_paramField hfit1, toNat_paramField hfit2]
  simp

/-- The words of a command, as numbers: the counts of a well-formed command at their places, and OP below them (R57). -/
theorem decode_eq_ok_iff_toNat {w : Word} {i : Instr} : decode w = .ok i ↔
    i.WellFormed ∧ w.toNat = i.count2.getD 0 * 2 ^ 16 + i.count1.getD 0 * 2 ^ 8 + (opcode i).toNat := by
  constructor
  · intro h
    have hf := carriesFields_of_decode h
    exact ⟨hf.wellFormed, hf.toNat_eq⟩
  · rintro ⟨hwf, hw⟩
    have hf := carriesFields_encode hwf
    obtain rfl : w = encode i := BitVec.eq_of_toNat_eq (hw.trans hf.toNat_eq.symm)
    exact decode_of_carriesFields hf

end Sys2Proof
end

section
/-! SUPPORT. Facts that the proofs of 41_polynomial.md share: what keeps the results canonical, and what EVAL and SPLIT answer in each
case of their checks. -/

namespace Sys2Proof.Machine

/-! Canonical results -/

/-- A state with the results of a canonical one is canonical. -/
theorem CanonicalResults.of_eq {s t : State} (h : CanonicalResults s) (hr : t.r = s.r) (hsy : t.sy = s.sy) :
    CanonicalResults t := by
  rw [CanonicalResults, hr, hsy]
  exact h

theorem canonicalResults_of_zero {t : State} (hr : t.r = 0) (hsy : t.sy = zeroBank) : CanonicalResults t := by
  have h0 : Canonical 0 := by decide
  refine ⟨hr ▸ h0, fun i _ => ?_⟩
  rw [hsy, readEntry_zeroBank]
  exact h0

/-- Every value that a SPLIT stores is an output of Horner's loop, so SY stays canonical. -/
theorem canonical_storeShares (k n : Nat) {s : State} (h : CanonicalResults s) : CanonicalResults (storeShares k n s) := by
  obtain ⟨hr, hsy⟩ := h
  refine ⟨hr, fun i hi => ?_⟩
  rw [storeShares_sy, readEntry_writeShares]
  split
  · obtain ⟨h0, hp⟩ := horner_range (coefAt s) k (i + 1 : Nat)
    exact canonical_toHalf h0 hp
  · exact hsy i hi

theorem ExecEffect.canonicalResults {i : Instr} {s t : State} (he : ExecEffect s i t) (h : CanonicalResults s) :
    CanonicalResults t := by
  cases he with
  | nop => exact h.of_eq rfl rfl
  | result _ _ v h0 hp => exact ⟨canonical_toHalf h0 hp, h.2⟩
  | failure => exact h.of_eq rfl rfl
  | splitDone k n => exact (canonical_storeShares k n h).of_eq rfl rfl
  | splitFailed => exact h.of_eq rfl rfl
  | wipe => exact canonicalResults_of_zero rfl rfl

/-! What EVAL and SPLIT answer -/

theorem complete_of_decode {s : State} {i : Instr} (h : decode s.cmdReg = .ok i) : complete s = exec i s := by
  simp only [complete, h]

theorem complete_of_illegal {s : State} {e : DecodeError} (h : decode s.cmdReg = .error e) : complete s = execIllegal s := by
  simp only [complete, h]

theorem Failed.errCode {e : ErrorCode} {s t : State} (h : Failed e s t) : t.errCode = errorNumber e := by
  obtain ⟨-, -, hcode, -⟩ := h
  exact hcode

theorem exec_eval_of_ne {k : Nat} (h : k ≠ 0) (s : State) :
    exec (.eval k) s = succeedWith (horner (coefAt s) k (operandA s)) s := if_neg h

/-- The secret check compares the stored 16-bit COEF[0] itself with p (R85). -/
theorem prime_le_coefAt_iff (s : State) (i : Nat) :
    (Config.prime : Int) ≤ coefAt s i ↔ Config.prime ≤ (readEntry s.coef i).toNat := Int.ofNat_le

theorem splitError_argZero {k n : Nat} (h : k = 0 ∨ n = 0) (s : State) : splitError k n s = some .argZero := if_pos h

theorem splitError_argKGtN {k n : Nat} (hn : 1 ≤ n) (hk : n < k) (s : State) : splitError k n s = some .argKGtN := by
  rw [splitError, if_neg (by omega), if_pos hk]

theorem splitError_secretGePrime {k n : Nat} {s : State} (hk : 1 ≤ k) (hn : k ≤ n)
    (hc : Config.prime ≤ (readEntry s.coef 0).toNat) : splitError k n s = some .secretGePrime := by
  rw [splitError, if_neg (by omega), if_neg (by omega), if_pos ((prime_le_coefAt_iff s 0).mpr hc)]

/-- A failed SPLIT wipes COEF and moves nothing else but STATUS (R86, R99). -/
theorem exec_split_failed {k n : Nat} {s : State} {e : ErrorCode} (h : splitError k n s = some e) :
    ∃ t, exec (.split k n) s = .next t ∧ SplitFailed e s t ∧ t.errCode = errorNumber e :=
  ⟨_, exec_split_of_some h,
    ⟨⟨rfl, rfl, rfl, rfl, rfl⟩, allZero_zeroBank, ⟨rfl, rfl, rfl, rfl, rfl⟩, rfl, rfl, rfl, rfl, rfl, rfl⟩, rfl⟩

/-- SPLIT answers a next state in which COEF is all zeros, whatever its checks found (R86). -/
theorem exec_split_wipesCoef (k n : Nat) (s : State) :
    ∃ t, exec (.split k n) s = .next t ∧ t.busy = false ∧ t.coef = zeroBank := by
  obtain ⟨t, ht, he⟩ := exec_effect (.split k n) s
  refine ⟨t, ht, ?_⟩
  cases he with
  | splitDone => exact ⟨rfl, rfl⟩
  | splitFailed => exact ⟨rfl, rfl⟩
  | result _ hi | failure _ hi => cases hi

/-- A SPLIT whose checks pass (R85). -/
theorem exec_split_accepted {k n : Nat} {s : State} (hk : 1 ≤ k) (hn : k ≤ n) (hc : (readEntry s.coef 0).toNat < Config.prime) :
    exec (.split k n) s = .next (completeOk (wipeCoef (storeShares k n s))) :=
  exec_split_of_none (splitError_eq_none hk hn (Int.ofNat_lt.mpr hc))

/-- The share in entry j is Horner's value at j + 1 (R85). -/
theorem readEntry_storeShares_of_lt (k : Nat) {n j : Nat} (s : State) (hj : j < n) (hn : n ≤ 255) :
    readEntry (storeShares k n s).sy j = toHalf (horner (coefAt s) k (j + 1 : Nat)) := by
  rw [storeShares_sy, readEntry_writeShares, if_pos ⟨hj, by simp only [Config.arrayDepth]; omega⟩]

/-- Horner's loop reads no coefficient from K on (R82). -/
theorem horner_congr {c d : Nat → Int} {k : Nat} (h : ∀ i < k, c i = d i) (x : Int) : horner c k x = horner d k x :=
  countDown_congr k _ _ 0 fun i hi => by rw [h i hi]

theorem value_ofNat {x : Nat} (h : x ≤ 255) : value (BitVec.ofNat 16 x) = x := by
  rw [value, BitVec.toNat_ofNat, Nat.mod_eq_of_lt (by omega)]

end Sys2Proof.Machine
end

section
/-! PROOFS. The statements of the family 41_polynomial.md. -/

namespace Sys2Proof.Machine

/-- Settles O37: a step keeps the results, or completes a command whose effect keeps them canonical, or resets them to 0. -/
theorem canonicalResultsKept : Obligations.CanonicalResultsKept := by
  intro s t hs h
  obtain ⟨hr, hsy⟩ | ⟨i, -, he⟩ | ht := step_results h
  · exact hs.of_eq hr hsy
  · exact he.canonicalResults (hs.of_eq rfl rfl)
  · rw [step_of_reset h ht]
    exact canonicalResults_of_zero rfl rfl

/-- Settles O44: EVAL with K > 0 succeeds with Horner's value, which is the polynomial's, and with K = 0 it fails. -/
theorem evalIsThePolynomialValue : Obligations.EvalIsThePolynomialValue := by
  refine ⟨?words, ?value, ?zero⟩
  case words =>
    intro w k
    simp [decode_eq_ok_iff_toNat, Instr.WellFormed, countFits, Instr.count1, Instr.count2, opcode]
  case value =>
    intro s k hk _
    obtain ⟨h0, hp⟩ := horner_range (coefAt s) k (operandA s)
    obtain ⟨t, ht, hr, hs, hkept⟩ := succeedWith_spec _ s h0 hp
    exact ⟨t, (exec_eval_of_ne (by omega) s).trans ht, hr.trans (horner_eq_polynomial _ k _), hs, hkept⟩
  case zero =>
    intro s
    obtain ⟨t, ht, hf, hk⟩ := failWith_spec .argZero s
    exact ⟨t, ht, hf, hf.errCode, hk⟩

/-- Settles O45: the four cases of SPLIT's checks, and the shares stored where all of them pass. -/
theorem splitWritesTheShares : Obligations.SplitWritesTheShares := by
  refine ⟨?words, ?argZero, ?argKGtN, ?secret, ?shares⟩
  case words =>
    intro w k n
    simp [decode_eq_ok_iff_toNat, Instr.WellFormed, countFits, Instr.count1, Instr.count2, opcode, and_assoc]
  case argZero =>
    intro s k n _ _ h
    exact exec_split_failed (splitError_argZero h s)
  case argKGtN =>
    intro s k n _ hn hk
    exact exec_split_failed (splitError_argKGtN hn hk s)
  case secret =>
    intro s k n hk hn _ hc
    exact exec_split_failed (splitError_secretGePrime hk hn hc)
  case shares =>
    intro s k n hk hkn hn hc
    obtain ⟨hshares, hrest⟩ := readEntry_sy_storeShares k n s hn
    exact ⟨_, exec_split_accepted hk hkn hc, hshares, hrest, allZero_zeroBank, rfl, ⟨rfl, rfl, rfl, rfl, rfl⟩,
      ⟨rfl, rfl, rfl, rfl, rfl⟩, rfl, rfl, rfl, rfl⟩

/-- Settles O46: each way a SPLIT ends leaves COEF all zeros with BUSY 0; a word with a reserved bit set is no command at all. -/
theorem splitWipesOnEveryExitPath : Obligations.SplitWipesOnEveryExitPath := by
  refine ⟨?wipes, ?illegal⟩
  case wipes =>
    intro s k n hd
    obtain ⟨t, ht, hb, hc⟩ := exec_split_wipesCoef k n s
    refine ⟨t, (complete_of_decode hd).trans ht, hc ▸ allZero_zeroBank, fun i => ?_⟩
    rw [busRead_offsetOf, readLoc_stored (.inl hb), locWord, getBank, hc, readEntry_zeroBank]
    rfl
  case illegal =>
    intro s _ hrsv
    obtain ⟨e, hd⟩ : ∃ e, decode s.cmdReg = .error e :=
      decode_error_of_not_carriesFields fun i hf => hrsv.elim (absurd hf.rsv0) (absurd hf.rsv1)
    obtain ⟨t, ht, hf, ⟨-, hcoef, -⟩, -⟩ := execIllegal_spec s
    exact ⟨t, (complete_of_illegal hd).trans ht, hf, hcoef⟩

/-- Settles O55: the induction on Horner's loop, and the range of its last reduction. -/
theorem hornerIsThePolynomial : Obligations.HornerIsThePolynomial := fun c k x _ =>
  ⟨horner_eq_polynomial c k x, horner_range c k x⟩

/-- Settles O58: SPLIT stores and EVAL answers the value of the same loop, which reads only the first K coefficients. -/
theorem splitAgreesWithEval : Obligations.SplitAgreesWithEval := by
  refine ⟨?eval, ?coefficients⟩
  case eval =>
    intro s k n x hk hkn hn hc hx hxn
    refine ⟨_, _, exec_split_accepted hk hkn hc, exec_eval_of_ne (by omega) _, ?_⟩
    calc readEntry (storeShares k n s).sy (x - 1) = toHalf (horner (coefAt s) k x) := by
          rw [readEntry_storeShares_of_lt k s (by omega) hn, Nat.sub_add_cancel hx]
      _ = toHalf (horner (coefAt s) k (value (BitVec.ofNat 16 x))) := by rw [value_ofNat (by omega)]
  case coefficients =>
    intro s u k n m hk hkn hnm hm hc hcoef
    have hcu : (readEntry u.coef 0).toNat < Config.prime := by rwa [hcoef 0 hk]
    have hsame : ∀ i < k, coefAt u i = coefAt s i := fun i hi => congrArg value (hcoef i hi)
    refine ⟨_, _, exec_split_accepted hk hkn hc, exec_split_accepted hk (hkn.trans hnm) hcu, fun j hj => ?_⟩
    calc readEntry (storeShares k m u).sy j = toHalf (horner (coefAt u) k (j + 1 : Nat)) :=
          readEntry_storeShares_of_lt k u (by omega) hm
      _ = toHalf (horner (coefAt s) k (j + 1 : Nat)) := by rw [horner_congr hsame]
      _ = readEntry (storeShares k n s).sy j := (readEntry_storeShares_of_lt k s hj (hnm.trans hm)).symm

end Sys2Proof.Machine
end

section
/-! SUPPORT. Facts that the proofs of 42_interpolation.md share: the loops of R91 as products and sums in the field Zp, the interpolant
through the points as a polynomial over Zp, and what INTERP answers in each case of its checks. -/

namespace Sys2Proof.Machine

open Polynomial

/-! The field Zp -/

/-- The field in which the unit computes (R4), as the library's integers mod p. -/
abbrev Zp := ZMod Config.prime

/-- The primality that makes Zp a field. -/
theorem fact_prime : Fact (Nat.Prime Config.prime) := ⟨prime_prime⟩

@[simp] theorem intCast_modp (a : Int) : ((modp a : Int) : Zp) = a := ZMod.intCast_mod a Config.prime

theorem modp_eq_iff_intCast {a b : Int} : modp a = modp b ↔ (a : Zp) = b :=
  (ZMod.intCast_eq_intCast_iff' a b Config.prime).symm

theorem modp_eq_zero_iff_intCast {a : Int} : modp a = 0 ↔ (a : Zp) = 0 :=
  (modp_eq_iff_intCast (b := 0)).trans (by rw [Int.cast_zero])

/-- Points have distinct x residues exactly when the residue tells the point. -/
theorem distinctX_iff {px : Nat → Int} {m : Nat} :
    DistinctX px m ↔ ∀ i j, i < m → j < m → modp (px i) = modp (px j) → i = j := by
  constructor
  · intro h i j hi hj hx
    rcases lt_trichotomy i j with hij | rfl | hji
    · exact absurd hx (h i j hij hj)
    · rfl
    · exact absurd hx.symm (h j i hji hi)
  · intro h i j hij hj hx
    exact hij.ne (h i j (hij.trans hj) hj hx)

theorem DistinctX.injOn {px : Nat → Int} {m : Nat} (h : DistinctX px m) :
    Set.InjOn (fun j => (px j : Zp)) (Finset.range m) := by
  intro i hi j hj hx
  exact distinctX_iff.mp h i j (Finset.mem_range.mp hi) (Finset.mem_range.mp hj) (modp_eq_iff_intCast.mpr hx)

/-! The loops of R91 in Zp -/

/-- A loop that adds up residues is a sum in Zp. -/
theorem intCast_countUp_add (g : Nat → Int) (m : Nat) :
    ((countUp m (fun i result => modp (result + g i)) 0 : Int) : Zp) = ∑ i ∈ Finset.range m, (g i : Zp) := by
  induction m with
  | zero => simp [countUp]
  | succ m ih => simp [countUp, ih, Finset.sum_range_succ]

/-- A loop that multiplies residues but leaves out index i is a product in Zp over the other indices. -/
theorem intCast_countUp_mul_of_ne (g : Nat → Int) (m i : Nat) :
    ((countUp m (fun j acc => if j = i then acc else modp (acc * modp (g j))) 1 : Int) : Zp)
      = ∏ j ∈ (Finset.range m).erase i, (g j : Zp) := by
  rw [← Finset.filter_ne', Finset.prod_filter]
  induction m with
  | zero => simp [countUp]
  | succ m ih =>
    rw [countUp, Finset.prod_range_succ, ← ih]
    by_cases hm : m = i <;> simp [hm]

theorem intCast_lagrangeNum (px : Nat → Int) (m i : Nat) :
    ((lagrangeNum px m i : Int) : Zp) = ∏ j ∈ (Finset.range m).erase i, (0 - (px j : Zp)) := by
  simp only [lagrangeNum, intCast_countUp_mul_of_ne (fun j => 0 - px j), Int.cast_sub, Int.cast_zero]

theorem intCast_lagrangeDen (px : Nat → Int) (m i : Nat) :
    ((lagrangeDen px m i : Int) : Zp) = ∏ j ∈ (Finset.range m).erase i, ((px i : Zp) - px j) := by
  simp only [lagrangeDen, intCast_countUp_mul_of_ne (fun j => px i - px j), Int.cast_sub]

/-! A polynomial over Zp by its coefficients -/

/-- The polynomial over Zp with the coefficients `c 0` to `c (m-1)`. -/
noncomputable def polynomialZp (c : Nat → Int) (m : Nat) : Zp[X] := ∑ i ∈ Finset.range m, C (c i : Zp) * X ^ i

theorem eval_polynomialZp (c : Nat → Int) (m : Nat) (x : Int) : (polynomialZp c m).eval (x : Zp) = (polynomial c m x : Int) := by
  simp [polynomialZp, polynomial, eval_finsetSum]

theorem coeff_polynomialZp (c : Nat → Int) (m i : Nat) : (polynomialZp c m).coeff i = if i < m then (c i : Zp) else 0 := by
  simp [polynomialZp, coeff_X_pow]

theorem degree_polynomialZp_lt (c : Nat → Int) (m : Nat) : (polynomialZp c m).degree < m := by
  refine (degree_lt_iff_coeff_zero _ m).mpr fun i hi => ?_
  rw [coeff_polynomialZp, if_neg (Nat.not_lt.mpr hi)]

theorem passesThrough_iff {c px py : Nat → Int} {m : Nat} :
    PassesThrough c px py m ↔ ∀ j < m, (polynomialZp c m).eval (px j : Zp) = py j :=
  forall₂_congr fun j _ => by rw [eval_polynomialZp]; exact modp_eq_iff_intCast

section Field
variable [Fact (Nat.Prime Config.prime)]

/-! The denominators and the inverse in the field -/

/-- A product in a field is 0 exactly when a factor is: the zero-denominator check is the duplicate check (R92). -/
theorem intCast_lagrangeDen_eq_zero_iff {px : Nat → Int} {m i : Nat} :
    ((lagrangeDen px m i : Int) : Zp) = 0 ↔ ∃ j, j < m ∧ j ≠ i ∧ (px j : Zp) = px i := by
  simp only [intCast_lagrangeDen, Finset.prod_eq_zero_iff, Finset.mem_erase, Finset.mem_range, sub_eq_zero]
  constructor
  · rintro ⟨j, ⟨hji, hj⟩, hx⟩
    exact ⟨j, hj, hji, hx.symm⟩
  · rintro ⟨j, hj, hji, hx⟩
    exact ⟨j, ⟨hji, hj⟩, hx.symm⟩

/-- R76's inverse is the inverse of the field; the Bézout coefficient of 0 is 0, as the library's inverse of 0. -/
theorem intCast_inv (a : Int) : ((inv a : Int) : Zp) = (a : Zp)⁻¹ := by
  by_cases h : modp a = 0
  · have hinv : inv a = 0 := (inv_congr (b := 0) h).trans (by decide)
    rw [hinv, modp_eq_zero_iff_intCast.mp h, Int.cast_zero, inv_zero]
  · have hmul : modp (a * inv a) = modp 1 := modp_mul_inv h
    rw [modp_eq_iff_intCast, Int.cast_mul, Int.cast_one] at hmul
    exact eq_inv_of_mul_eq_one_right hmul

/-! The interpolant -/

/-- The interpolant through the points (px j, py j), j < m, over Zp. -/
noncomputable def interpolant (px py : Nat → Int) (m : Nat) : Zp[X] :=
  Lagrange.interpolate (Finset.range m) (fun j => (px j : Zp)) fun j => (py j : Zp)

/-- The value at 0 of a Lagrange basis polynomial is R91's num_i over den_i. -/
theorem eval_zero_basis (px : Nat → Int) (m i : Nat) :
    (Lagrange.basis (Finset.range m) (fun j => (px j : Zp)) i).eval 0
      = ((lagrangeNum px m i : Int) : Zp) * ((lagrangeDen px m i : Int) : Zp)⁻¹ := by
  simp only [Lagrange.basis, Lagrange.basisDivisor, eval_prod, eval_mul, eval_C, eval_sub, eval_X, Finset.prod_mul_distrib,
    Finset.prod_inv_distrib, intCast_lagrangeNum, intCast_lagrangeDen]
  exact mul_comm _ _

/-- R91's loop computes the value at 0 of the interpolant. -/
theorem intCast_lagrange0 (px py : Nat → Int) (m : Nat) :
    ((lagrange0 px py m : Int) : Zp) = (interpolant px py m).eval 0 := by
  rw [lagrange0, intCast_countUp_add, interpolant, Lagrange.interpolate_apply, eval_finsetSum]
  refine Finset.sum_congr rfl fun i _ => ?_
  rw [eval_mul, eval_C, eval_zero_basis]
  simp only [intCast_modp, Int.cast_mul, intCast_inv]
  ring

/-- A polynomial through the points is the interpolant. -/
theorem PassesThrough.polynomialZp_eq {c px py : Nat → Int} {m : Nat} (hd : DistinctX px m) (h : PassesThrough c px py m) :
    polynomialZp c m = interpolant px py m := by
  refine Lagrange.eq_interpolate_of_eval_eq _ hd.injOn ?_ fun j hj => ?_
  · rw [Finset.card_range]
    exact degree_polynomialZp_lt c m
  · exact passesThrough_iff.mp h j (Finset.mem_range.mp hj)

/-- The interpolant's coefficients, as integers, are those of a polynomial through the points. -/
theorem polynomialZp_coeff_interpolant {px : Nat → Int} (py : Nat → Int) {m : Nat} (hd : DistinctX px m) :
    polynomialZp (fun i => ((interpolant px py m).coeff i).val) m = interpolant px py m := by
  have hdeg := Lagrange.degree_interpolate_lt (fun j => (py j : Zp)) hd.injOn
  rw [Finset.card_range] at hdeg
  ext i
  rw [coeff_polynomialZp]
  split
  · simp
  · exact ((degree_lt_iff_coeff_zero _ m).mp hdeg i (by omega)).symm

end Field

theorem exists_passesThrough {px : Nat → Int} (py : Nat → Int) {m : Nat} (hd : DistinctX px m) :
    ∃ c : Nat → Int, PassesThrough c px py m := by
  have := fact_prime
  refine ⟨fun i => ((interpolant px py m).coeff i).val, passesThrough_iff.mpr fun j hj => ?_⟩
  rw [polynomialZp_coeff_interpolant py hd]
  exact Lagrange.eval_interpolate_at_node _ hd.injOn (Finset.mem_range.mpr hj)

/-- R91's loop gives the constant term of every polynomial through the points. -/
theorem PassesThrough.lagrange0_eq {c px py : Nat → Int} {m : Nat} (hm : 1 ≤ m) (hd : DistinctX px m)
    (h : PassesThrough c px py m) : lagrange0 px py m = modp (c 0) := by
  have := fact_prime
  obtain ⟨h0, hp⟩ := lagrange0_range px py m
  rw [← modp_of_lt _ h0 hp, modp_eq_iff_intCast, intCast_lagrange0, ← h.polynomialZp_eq hd, ← coeff_zero_eq_eval_zero,
    coeff_polynomialZp, if_pos (Nat.lt_of_succ_le hm)]

/-- R91 for one point. -/
theorem lagrange0_one (px py : Nat → Int) : lagrange0 px py 1 = modp (py 0) := by
  have hinv : inv 1 = 1 := by decide
  simp [lagrange0, lagrangeNum, lagrangeDen, countUp, hinv]

/-- The coefficients of the polynomial that SPLIT k, n shares: COEF below k, and 0 from k on (R85). -/
def sharedCoef (s : State) (k i : Nat) : Int := if i < k then coefAt s i else 0

/-- With zeros after its first k coefficients a polynomial keeps its values (R81). -/
theorem polynomial_sharedCoef (s : State) {k m : Nat} (hkm : k ≤ m) (x : Int) :
    polynomial (sharedCoef s k) m x = polynomial (coefAt s) k x := by
  calc polynomial (sharedCoef s k) m x = polynomial (sharedCoef s k) k x := by
        refine (Finset.sum_subset (Finset.range_mono hkm) fun i _ hi => ?_).symm
        rw [sharedCoef, if_neg (by simpa using hi), zero_mul]
    _ = polynomial (coefAt s) k x :=
        Finset.sum_congr rfl fun i hi => by rw [sharedCoef, if_pos (Finset.mem_range.mp hi)]

/-! What INTERP answers -/

theorem exec_interp_of_some {m k : Nat} {s : State} {e : ErrorCode} (h : interpError m k s = some e) :
    exec (.interp m k) s = failWith e s := by
  simp only [exec, execInterp, h]

theorem exec_interp_of_none {m k : Nat} {s : State} (h : interpError m k s = none) :
    exec (.interp m k) s = succeedWith (lagrange0 (pxAt s) (pyAt s) m) s := by
  simp only [exec, execInterp, h]

theorem interpError_argZero {m k : Nat} (h : m = 0 ∨ k = 0) (s : State) : interpError m k s = some .argZero := if_pos h

theorem interpError_tooFewPoints {m k : Nat} (hm : 1 ≤ m) (hk : m < k) (s : State) :
    interpError m k s = some .tooFewPoints := by
  rw [interpError, if_neg (by omega), if_pos hk]

theorem interpError_duplicateX {m k : Nat} {s : State} (hk : 1 ≤ k) (hkm : k ≤ m) (h : hasDuplicateX (pxAt s) m = true) :
    interpError m k s = some .duplicateX := by
  rw [interpError, if_neg (by omega), if_neg (by omega), if_pos h]

theorem DistinctX.hasDuplicateX_eq_false {px : Nat → Int} {m : Nat} (h : DistinctX px m) : hasDuplicateX px m = false := by
  rw [← Bool.not_eq_true, hasDuplicateX_iff]
  rintro ⟨i, j, hij, hj, hx⟩
  exact h i j hij hj hx

/-- An INTERP whose checks pass writes R91's value to R and moves nothing else but STATUS (R93). -/
theorem exec_interp_accepted {m k : Nat} {s : State} (hk : 1 ≤ k) (hkm : k ≤ m) (hd : DistinctX (pxAt s) m) :
    ∃ t, exec (.interp m k) s = .next t ∧ (t.r.toNat : Int) = lagrange0 (pxAt s) (pyAt s) m ∧ Succeeded s t ∧
      KeepsAllButR s t := by
  have hnone : interpError m k s = none := by
    rw [interpError, if_neg (by omega), if_neg (by omega), if_neg (by simp [hd.hasDuplicateX_eq_false])]
  obtain ⟨h0, hp⟩ := lagrange0_range (pxAt s) (pyAt s) m
  obtain ⟨t, ht, hrest⟩ := succeedWith_spec _ s h0 hp
  exact ⟨t, (exec_interp_of_none hnone).trans ht, hrest⟩

/-- A failed INTERP moves nothing but STATUS, which reports the check that failed (R93, R99). -/
theorem exec_interp_failed {m k : Nat} {s : State} {e : ErrorCode} (h : interpError m k s = some e) :
    ∃ t, exec (.interp m k) s = .next t ∧ Failed e s t ∧ t.errCode = errorNumber e ∧ KeepsAllData s t := by
  obtain ⟨t, ht, hf, hk⟩ := failWith_spec e s
  exact ⟨t, (exec_interp_of_some h).trans ht, hf, hf.errCode, hk⟩

/-- No check of INTERP reports NOT_INVERTIBLE (R90, R92). -/
theorem interpError_ne_notInvertible (m k : Nat) (s : State) : interpError m k s ≠ some .notInvertible := by
  unfold interpError
  split
  · nofun
  split
  · nofun
  split <;> nofun

end Sys2Proof.Machine
end

section
/-! PROOFS. The statements of the family 42_interpolation.md. -/

namespace Sys2Proof.Machine

/-- Settles O56: over Zp the loop's value is the interpolant's at 0, and a polynomial through the points is the interpolant. -/
theorem lagrangeIsTheInterpolantAtZero : Obligations.LagrangeIsTheInterpolantAtZero := by
  refine ⟨fun px py m hm hd => ?_, lagrange0_one⟩
  obtain ⟨h0, hp⟩ := lagrange0_range px py m
  exact ⟨h0, hp, exists_passesThrough py hd, fun c hc => hc.lagrange0_eq hm hd⟩

/-- Settles O47: the three checks in their order, and R91's value where all of them pass. -/
theorem interpReconstructsTheConstantTerm : Obligations.InterpReconstructsTheConstantTerm := by
  refine ⟨?words, ?argZero, ?tooFewPoints, ?duplicateX, ?success⟩
  case words =>
    intro w m k
    simp [decode_eq_ok_iff_toNat, Instr.WellFormed, countFits, Instr.count1, Instr.count2, opcode, and_assoc]
  case argZero =>
    intro s m k _ _ h
    exact exec_interp_failed (interpError_argZero h s)
  case tooFewPoints =>
    intro s m k hm hk _
    exact exec_interp_failed (interpError_tooFewPoints hm hk s)
  case duplicateX =>
    intro s m k i j hk hkm _ hij hj hx
    have hres : modp (pxAt s i) = modp (pxAt s j) := by
      rw [pxAt, pxAt, value, value, modp_natCast, modp_natCast, hx]
    exact exec_interp_failed (interpError_duplicateX hk hkm ((hasDuplicateX_iff _ m).mpr ⟨i, j, hij, hj, hres⟩))
  case success =>
    intro s m k hk hkm _ hd
    obtain ⟨t, ht, hr, hs, hkept⟩ := exec_interp_accepted hk hkm hd
    have hcanonical : (t.r.toNat : Int) < Config.prime := hr ▸ (lagrange0_range (pxAt s) (pyAt s) m).2
    exact ⟨t, ht, Int.ofNat_lt.mp hcanonical, fun c hc => hr.trans (hc.lagrange0_eq (hk.trans hkm) hd),
      exists_passesThrough _ hd, hs, hkept⟩

/-- Settles O57: a product of field elements is 0 exactly when a factor is, and no check of INTERP has code 5. -/
theorem duplicateCheckIsZeroDenominatorCheck : Obligations.DuplicateCheckIsZeroDenominatorCheck := by
  refine ⟨?denominator, ?code⟩
  case denominator =>
    intro px m i _
    have := fact_prime
    simp only [modp_eq_zero_iff_intCast, modp_eq_iff_intCast]
    exact intCast_lagrangeDen_eq_zero_iff
  case code =>
    intro s m k hs
    cases h : interpError m k s with
    | none => exact ⟨_, exec_interp_of_none h, by simp [hs, errorNumber]⟩
    | some e =>
      obtain ⟨t, ht, -, hcode, -⟩ := exec_interp_failed h
      refine ⟨t, ht, ?_⟩
      rw [hcode]
      cases e with
      | notInvertible => exact absurd h (interpError_ne_notInvertible m k s)
      | argZero | argKGtN | secretGePrime | duplicateX | tooFewPoints | illegalCommand => decide

/-- Settles O60: a polynomial through the points in one order passes through them in any other. -/
theorem pointOrderDoesNotMatter : Obligations.PointOrderDoesNotMatter := by
  intro s u m k f hk hkm _ hd hf hinj hsame
  have hx : ∀ j < m, pxAt u j = pxAt s (f j) := fun j hj => congrArg value (hsame j hj).1
  have hy : ∀ j < m, pyAt u j = pyAt s (f j) := fun j hj => congrArg value (hsame j hj).2
  have hdu : DistinctX (pxAt u) m := by
    refine distinctX_iff.mpr fun i j hi hj hij => hinj i j hi hj ?_
    rw [hx i hi, hx j hj] at hij
    exact distinctX_iff.mp hd _ _ (hf i hi) (hf j hj) hij
  obtain ⟨c, hc⟩ := exists_passesThrough (pyAt s) hd
  have hcu : PassesThrough c (pxAt u) (pyAt u) m := by
    intro j hj
    rw [hx j hj, hy j hj]
    exact hc (f j) (hf j hj)
  have hm : 1 ≤ m := hk.trans hkm
  obtain ⟨t, ht, hrt, -⟩ := exec_interp_accepted hk hkm hd
  obtain ⟨v, hv, hrv, hs, -⟩ := exec_interp_accepted hk hkm hdu
  refine ⟨t, v, ht, hv, BitVec.eq_of_toNat_eq (Int.natCast_inj.mp ?_), hs⟩
  rw [hrv, hrt, hcu.lagrange0_eq hm hdu, hc.lagrange0_eq hm hd]

/-- Settles O59: COEF's first k coefficients, followed by zeros, are a polynomial through any m ≥ k of the shares. -/
theorem reconstructionRecoversTheSecret : Obligations.ReconstructionRecoversTheSecret := by
  intro s u k n m x hk hkn hn hc hkm hx hne
  refine ⟨_, exec_split_accepted hk hkn hc, fun hpoints => ?_⟩
  have hpx : ∀ j < m, pxAt u j = x j := by
    intro j hj
    obtain ⟨-, hxn⟩ := hx j hj
    rw [pxAt, (hpoints j hj).1, value_ofNat (hxn.trans hn)]
  have hpy : ∀ j < m, pyAt u j = modp (polynomial (coefAt s) k (x j)) := by
    intro j hj
    obtain ⟨hx1, hxn⟩ := hx j hj
    rw [pyAt, (hpoints j hj).2]
    exact (readEntry_sy_storeShares k n s hn).1 (x j) hx1 hxn
  have hd : DistinctX (pxAt u) m := by
    intro i j hij hj
    have hi := hij.trans hj
    have hxi := hx i hi
    have hxj := hx j hj
    have := hne i j hij hj
    rw [hpx i hi, hpx j hj, Config.prime]
    omega
  have hpass : PassesThrough (sharedCoef s k) (pxAt u) (pyAt u) m := by
    intro j hj
    rw [hpx j hj, hpy j hj, polynomial_sharedCoef s hkm]
    exact (modp_modp _).symm
  obtain ⟨v, hv, hr, hs, -⟩ := exec_interp_accepted hk hkm hd
  refine ⟨v, hv, BitVec.eq_of_toNat_eq (Int.natCast_inj.mp ?_), hs⟩
  rw [hr, hpass.lagrange0_eq (hk.trans hkm) hd, sharedCoef, if_pos (Nat.lt_of_succ_le hk)]
  exact modp_of_lt _ (value_nonneg _) (Int.ofNat_lt.mpr hc)

end Sys2Proof.Machine
end

section
/-! SUPPORT. What NOP, WIPE and the illegal word answer, when two idle blocks read alike, and the frame of each command (R98). -/

namespace Sys2Proof.Machine

/-! The opcode table -/

/-- Every command that a word can carry selects its own row of R57, by its word. -/
theorem tableRow_selects_encode (i : Instr) : Laws.MatchesTable.Statement i := by
  cases i with
  | nop => exact Laws.MatchesTable.nop
  | add => exact Laws.MatchesTable.add
  | sub => exact Laws.MatchesTable.sub
  | mul => exact Laws.MatchesTable.mul
  | inv => exact Laws.MatchesTable.inv
  | div => exact Laws.MatchesTable.div
  | eval k => exact Laws.MatchesTable.eval k
  | split k n => exact Laws.MatchesTable.split k n
  | interp m k => exact Laws.MatchesTable.interp m k
  | wipe => exact Laws.MatchesTable.wipe

/-- A legal word selects the row of its command. -/
theorem and_mask_eq_of_decode {w : Word} {i : Instr} (h : decode w = .ok i) : w &&& (tableRow i).mask = (tableRow i).value := by
  have hf := carriesFields_of_decode h
  have hsel := tableRow_selects_encode i hf.wellFormed
  rw [hf.encode_eq] at hsel
  exact of_decide_eq_true hsel

/-- A row does not depend on the counts, so the table holds the row of every command. -/
theorem tableRow_mem_opcodeTable (i : Instr) : tableRow i ∈ opcodeTable := by
  cases i <;> simp [opcodeTable, tableRow]

/-! What NOP and WIPE answer -/

theorem exec_nop (s : State) : exec .nop s = .next (completeOk s) := rfl

theorem exec_wipe (s : State) : exec .wipe s = .next (completeOk (wipeData s)) := rfl

/-- After WIPE the word stored at every data location is 0 (R96). -/
theorem locWord_wiped {l : Loc} (hl : isData l = true) (s : State) : locWord (completeOk (wipeData s)) l = 0 := by
  cases l with
  | cmd | status | prime => cases hl
  | a | b | r => rfl
  | entry bank i => cases bank <;> exact congrArg zext32 (readEntry_zeroBank i.val)

/-- While no command is pending, what reads return depends only on the words stored at the locations (R40). -/
theorem busRead_fst_congr {s u : State} (hs : s.busy = false) (hu : u.busy = false) (h : ∀ l, locWord s l = locWord u l)
    (addr : Offset) : (busRead addr s).1 = (busRead addr u).1 := by
  cases ht : targetOf addr with
  | misaligned => rw [busRead_misaligned ht, busRead_misaligned ht]
  | reserved => rw [busRead_reserved ht, busRead_reserved ht]
  | loc l =>
    obtain rfl := eq_offsetOf_of_targetOf ht
    rw [busRead_stored (.inl hs), busRead_stored (.inl hu), h]

/-! How a command ends, and what it leaves alone -/

theorem succeeded_of_sameControl {s t : State} (h : SameControl (completeOk s) t) : Succeeded s t :=
  ⟨h.busy, h.done, h.err, h.errCode, h.drop⟩

theorem failed_of_sameControl {e : ErrorCode} {s t : State} (h : SameControl (raiseError e s) t) : Failed e s t :=
  ⟨h.busy, h.err, h.errCode, h.done, h.drop⟩

theorem keepsAllData_completeOk (s : State) : KeepsAllData s (completeOk s) :=
  ⟨⟨⟨rfl, rfl, rfl, rfl, rfl⟩, rfl, rfl, rfl, rfl, rfl, rfl⟩, rfl⟩

theorem keepsAllData_raiseError (e : ErrorCode) (s : State) : KeepsAllData s (raiseError e s) :=
  ⟨⟨⟨rfl, rfl, rfl, rfl, rfl⟩, rfl, rfl, rfl, rfl, rfl, rfl⟩, rfl⟩

theorem keepsAllButR_completeOk_setR (v : Int) (s : State) : KeepsAllButR s (completeOk (setR v s)) :=
  ⟨⟨rfl, rfl, rfl, rfl, rfl⟩, rfl, rfl, rfl, rfl, rfl, rfl⟩

/-- SPLIT N writes no share from entry N on (R85). -/
theorem readEntry_storeShares_of_le (k : Nat) {n j : Nat} (s : State) (hj : n ≤ j) :
    readEntry (storeShares k n s).sy j = readEntry s.sy j := by
  rw [storeShares_sy, readEntry_writeShares, if_neg fun h => absurd h.1 (Nat.not_lt.mpr hj)]

/-- The row of a command that writes R: R on success, nothing on error. -/
theorem frameRow_of_writesR {i : Instr} {s t : State} (hi : writesR i = true) (h : KeepsAllButR s t)
    (hr : t.err = true → t.r = s.r) : FrameRow i s t := by
  cases i with
  | add | sub | mul => exact h
  | inv | div | eval | interp => exact ⟨h, hr⟩
  | nop | split | wipe => cases hi

/-- A command that began with ERR = 0 writes what its row of R98 lists and nothing else. -/
theorem ExecEffect.frameRow {i : Instr} {s t : State} (h : ExecEffect s i t) (he : s.err = false) : FrameRow i s t := by
  cases h with
  | nop => exact keepsAllData_completeOk s
  | result _ hi v =>
    exact frameRow_of_writesR hi (keepsAllButR_completeOk_setR v s) fun herr => absurd (he.symm.trans herr) Bool.false_ne_true
  | failure _ hi e =>
    obtain ⟨hk, hr⟩ := keepsAllData_raiseError e s
    exact frameRow_of_writesR hi hk fun _ => hr
  | splitDone k n =>
    exact ⟨⟨rfl, rfl, rfl, rfl, rfl⟩, rfl, allZero_zeroBank, fun j hj => readEntry_storeShares_of_le k s hj,
      fun herr => absurd (he.symm.trans herr) Bool.false_ne_true, rfl, rfl, rfl, rfl⟩
  | splitFailed =>
    exact ⟨⟨rfl, rfl, rfl, rfl, rfl⟩, rfl, allZero_zeroBank, fun _ _ => rfl, fun _ => rfl, rfl, rfl, rfl, rfl⟩
  | wipe =>
    exact ⟨rfl, rfl, rfl, rfl, allZero_zeroBank, allZero_zeroBank, allZero_zeroBank, allZero_zeroBank, rfl, rfl, rfl, rfl⟩

/-- No command touches what stands outside the block. -/
theorem ExecEffect.sameOutside {i : Instr} {s t : State} (h : ExecEffect s i t) : SameOutside s t := by
  cases h <;> exact ⟨rfl, rfl, rfl, rfl⟩

end Sys2Proof.Machine
end

section
/-! PROOFS. The statements of the family 43_control.md. -/

namespace Sys2Proof.Machine

/-- Settles O10: an illegal word's completion is the failure ILLEGAL_COMMAND; a legal word would select its command's row. -/
theorem illegalWordReportsIllegalCommand : Obligations.IllegalWordReportsIllegalCommand := by
  refine ⟨?completion, ?noRow, ?exampleWord⟩
  case completion =>
    intro s e hd
    obtain ⟨t, ht, hf, hk⟩ := execIllegal_spec s
    have hcode : t.errCode = 7 := hf.errCode
    exact ⟨t, (complete_of_illegal hd).trans ht, hf, hcode, hcode ▸ rfl, hk⟩
  case noRow =>
    intro w hw
    cases hd : decode w with
    | error e => exact ⟨e, rfl⟩
    | ok i => exact absurd (and_mask_eq_of_decode hd) (hw _ (tableRow_mem_opcodeTable i))
  case exampleWord =>
    have hd : decode 0x0000000A = .error .reservedOp := by decide
    exact ⟨_, complete_of_illegal hd, by decide⟩

/-- Settles O38: NOP has one word and writes only STATUS; the discard of CMD while ERR = 1 does not look at the word. -/
theorem nopCompletesAndChangesNoData : Obligations.NopCompletesAndChangesNoData := by
  refine ⟨decode_eq_ok_iff_eq_word (by decide), fun s => ?completes, fun s he => ?discarded⟩
  case completes =>
    exact ⟨completeOk s, exec_nop s, succeeded_of_sameControl ⟨rfl, rfl, rfl, rfl, rfl, rfl⟩, keepsAllData_completeOk s⟩
  case discarded =>
    rw [busWrite_offsetOf, writeLoc, writeCmd_discarded (.inr he), setDrop]

/-- Settles O48: WIPE has one word, and in the idle block it leaves every data location's stored word is 0. -/
theorem wipeZeroesAllData : Obligations.WipeZeroesAllData := by
  refine ⟨decode_eq_ok_iff_eq_word (by decide), fun s => ⟨completeOk (wipeData s), exec_wipe s, ?_⟩⟩
  refine ⟨succeeded_of_sameControl ⟨rfl, rfl, rfl, rfl, rfl, rfl⟩, rfl, rfl, rfl, rfl, allZero_zeroBank, allZero_zeroBank,
    allZero_zeroBank, allZero_zeroBank, ⟨rfl, rfl, rfl, rfl⟩, fun l hl => ?_⟩
  rw [busRead_stored (.inl (completeOk_busy _)), locWord_wiped hl]

/-- Settles O49: after WIPE both blocks are idle and store the same word at every location, 0 where it is data. -/
theorem wipeErasesEverySecret : Obligations.WipeErasesEverySecret := by
  intro s u t v hcmd hdrop herr hcode ht hv
  cases ht
  cases hv
  refine busRead_fst_congr rfl rfl fun l => ?_
  cases l with
  | cmd => exact hcmd
  | status =>
    show statusWord (completeOk (wipeData s)) = statusWord (completeOk (wipeData u))
    simp [statusWord, hdrop, herr, hcode]
  | prime => rfl
  | a | b | r | entry => exact (locWord_wiped rfl s).trans (locWord_wiped rfl u).symm

/-- Settles O50: every command's effect is one of R98's, which has its row, keeps CMDREG and DROP, and ends as R101 says. -/
theorem commandsWriteOnlyTheirFrame : Obligations.CommandsWriteOnlyTheirFrame := by
  refine ⟨fun i s he => ?_, execIllegal_spec⟩
  obtain ⟨t, ht, heff⟩ := exec_effect i s
  refine ⟨t, ht, heff.frameRow he, ?_⟩
  rcases sameControl_of_execEffect heff with hc | ⟨e, hc⟩
  · exact ⟨hc.cmdReg, hc.drop, heff.sameOutside, .inl (succeeded_of_sameControl hc)⟩
  · exact ⟨hc.cmdReg, hc.drop, heff.sameOutside, .inr ⟨e, failed_of_sameControl hc⟩⟩

end Sys2Proof.Machine
end

section
/-! SUPPORT. What a reset leaves in the block, and that the step of a reset turn is the reset. -/

namespace Sys2Proof.Machine

/-- A reset event leaves every piece of the block's state at its value of R114, whatever the block was doing. -/
theorem atReset_resetBlock (s : State) : AtReset (resetBlock s) :=
  ⟨rfl, rfl, rfl, rfl, rfl, rfl, rfl, rfl, rfl, allZero_zeroBank, allZero_zeroBank, allZero_zeroBank, allZero_zeroBank⟩

/-- The initial state is the one that a reset event gives from it. -/
theorem atReset_reset : AtReset State.reset := atReset_resetBlock State.reset

/-- With every field of STATUS 0, ERRCLASS and the reserved bits are 0 too, so the word is (R23). -/
theorem AtReset.statusWord_eq_zero {t : State} (h : AtReset t) : statusWord t = 0 := by
  obtain ⟨-, hbusy, hdone, herr, hdrop, hcode, -⟩ := h
  rw [statusWord, hbusy, hdone, herr, hdrop, hcode]
  rfl

/-- A reset turn always answers a next state, also while a command is pending (R113). -/
theorem step_eq_resetBlock {s : State} (ht : turnOf s = .reset) : step s = .next (resetBlock (afterTurn s)) := by
  rw [step_eq_takeTurn, ht, takeTurn]

end Sys2Proof.Machine
end

section
/-! PROOFS. The statements of the family 70_reset_and_hazards.md. -/

namespace Sys2Proof.Machine

/-- Settles O14: a reset turn's step is `resetBlock`, and BUSY falls only as `busyFollowsTheCommand` (R24) says. -/
theorem resetAbortsPendingCommand : Obligations.ResetAbortsPendingCommand := by
  refine ⟨fun s ht => ⟨_, step_eq_resetBlock ht, atReset_resetBlock _⟩, fun s t hbusy hstep hidle => ?_⟩
  obtain ⟨-, hfalls, -⟩ := busyFollowsTheCommand s t hstep
  exact hfalls hbusy hidle

/-- Settles O13: the fields are those of `AtReset`; ERRCLASS and the word of STATUS follow from them, and PRIME is a constant. -/
theorem resetValues : Obligations.ResetValues := by
  have hword := atReset_reset.statusWord_eq_zero
  obtain ⟨hcmd, hbusy, hdone, herr, hdrop, hcode, ha, hb, hr, hcoef, hpx, hpy, hsy⟩ := atReset_reset
  have hclass : errorClass State.reset.errCode = 0 := by rw [hcode]; rfl
  exact ⟨hcmd, hbusy, hdone, herr, hdrop, hcode, hclass, hword, ha, hb, hr, rfl, hcoef, hpx, hpy, hsy⟩

end Sys2Proof.Machine
end

section
/-! SUPPORT. What the encoding statements share: the opcode table read backwards, the assembler's counts, and the digits and bytes of a
share file. -/

namespace Sys2Proof

/-- The word of a command that a word can carry decodes to the command (R61). -/
theorem decode_encode {i : Instr} (h : i.WellFormed) : decode (encode i) = .ok i :=
  decode_of_carriesFields (carriesFields_encode h)

/-! The opcode table, from the row to the command -/

/-- A field that the mask keeps whole is the field of the match. -/
theorem extractLsb'_of_and_mask {w m v : Word} {start len : Nat} {x : BitVec len} (h : w &&& m = v)
    (hm : m.extractLsb' start len = BitVec.allOnes len) (hv : v.extractLsb' start len = x) : w.extractLsb' start len = x := by
  rw [← hv, ← h, BitVec.extractLsb'_and, hm, BitVec.and_allOnes]

/-- Every mask keeps the reserved bits and OP whole, so a word that selects the row has them as the row does. -/
theorem fixedFields_of_and_mask {w : Word} {i : Instr} (h : w &&& (tableRow i).mask = (tableRow i).value) :
    rsv1Of w = 0 ∧ rsv0Of w = 0 ∧ opOf w = opcode i := by
  cases i
  all_goals
    simp only [tableRow, opcode] at h ⊢
    exact ⟨extractLsb'_of_and_mask h (by decide) (by decide), extractLsb'_of_and_mask h (by decide) (by decide),
      extractLsb'_of_and_mask h (by decide) (by decide)⟩

/-- A word that selects the row of a command decodes to a command of that row: its counts are those the mask leaves free. -/
theorem exists_decode_of_and_mask {w : Word} {i : Instr} (h : w &&& (tableRow i).mask = (tableRow i).value) :
    ∃ j, decode w = .ok j ∧ tableRow j = tableRow i := by
  obtain ⟨hr1, hr0, hop⟩ := fixedFields_of_and_mask h
  have h1 : paramField (some (p1Of w).toNat) = p1Of w := paramField_toNat _
  have h2 : paramField (some (p2Of w).toNat) = p2Of w := paramField_toNat _
  cases i with
  | nop | add | sub | mul | inv | div | wipe =>
    obtain rfl : w = _ := BitVec.and_allOnes.symm.trans h
    exact ⟨_, rfl, rfl⟩
  | eval =>
    have hp2 : p2Of w = 0 := extractLsb'_of_and_mask (m := 0xFFFF00FF) (v := 0x6) h (by decide) (by decide)
    exact ⟨.eval (p1Of w).toNat, decode_of_carriesFields ⟨hr1, hp2, h1.symm, hr0, hop, countFits_toNat _, rfl⟩, rfl⟩
  | split =>
    exact ⟨.split (p1Of w).toNat (p2Of w).toNat,
      decode_of_carriesFields ⟨hr1, h2.symm, h1.symm, hr0, hop, countFits_toNat _, countFits_toNat _⟩, rfl⟩
  | interp =>
    exact ⟨.interp (p1Of w).toNat (p2Of w).toNat,
      decode_of_carriesFields ⟨hr1, h2.symm, h1.symm, hr0, hop, countFits_toNat _, countFits_toNat _⟩, rfl⟩

/-- The table holds no row but those of the commands. -/
theorem exists_tableRow_eq {row : TableRow} (h : row ∈ opcodeTable) : ∃ i, tableRow i = row := by
  obtain ⟨i, -, hi⟩ := List.mem_map.mp h
  exact ⟨i, hi⟩

end Sys2Proof

namespace Sys2Proof.Machine

/-! The assembler's counts (R63) -/

section Numbers

variable {bound n : Nat} {e : AsmError} {cs : List Char}

theorem numberBelow_of_lt (h : numberOf cs = .ok n) (hn : n < bound) : numberBelow bound e cs = .ok n := by
  simp only [numberBelow, h, if_pos hn]

theorem numberBelow_of_le (h : numberOf cs = .ok n) (hn : bound ≤ n) : numberBelow bound e cs = .error e := by
  simp only [numberBelow, h, if_neg (Nat.not_lt.mpr hn)]

theorem lt_of_numberBelow (h : numberBelow bound e cs = .ok n) : n < bound := by
  unfold numberBelow at h
  split at h
  · split at h
    · cases h; assumption
    · cases h
  · cases h

/-- Every number of a list that is read is below the bound. -/
theorem lt_of_mem_numberList {ts : List Token} {ns : List Nat} (h : numberList bound e ts = .ok ns) : ∀ n ∈ ns, n < bound := by
  fun_induction numberList bound e ts generalizing ns with
  | case1 cs =>
    cases hn : numberBelow bound e cs with
    | error => simp [hn, Except.map] at h
    | ok n =>
      obtain rfl : [n] = ns := by simpa [hn, Except.map] using h
      simpa using lt_of_numberBelow hn
  | case2 cs rest n ms hms hn ih =>
    cases h
    exact List.forall_mem_cons.mpr ⟨lt_of_numberBelow hn, ih hms⟩
  | case3 => cases h
  | case4 => cases h
  | case5 => cases h

end Numbers

theorem le_of_mem_countsOf {ts : List Token} {counts : List Nat} (h : countsOf ts = .ok counts) : ∀ n ∈ counts, n ≤ 255 := by
  cases ts with
  | nil => cases h; simp
  | cons t ts => exact fun n hn => Nat.le_of_lt_succ (lt_of_mem_numberList h n hn)

/-- A mnemonic with counts that fit is a command that a word can carry. -/
theorem wellFormed_of_commandOf {name : List Char} {counts : List Nat} {i : Instr} (hc : ∀ n ∈ counts, n ≤ 255)
    (h : commandOf name counts = .ok i) : i.WellFormed := by
  unfold commandOf at h
  split at h
  case h_1 =>
    repeat' split at h
    all_goals cases h
    all_goals exact ⟨rfl, rfl⟩
  case h_2 k =>
    have hk : k ≤ 255 := hc k List.mem_cons_self
    split at h <;> cases h
    exact ⟨decide_eq_true hk, rfl⟩
  case h_3 c1 c2 =>
    have h1 : c1 ≤ 255 := hc c1 List.mem_cons_self
    have h2 : c2 ≤ 255 := hc c2 (List.mem_cons_of_mem _ List.mem_cons_self)
    repeat' split at h
    all_goals cases h
    all_goals exact ⟨decide_eq_true h1, decide_eq_true h2⟩
  case h_4 => cases h

theorem wellFormed_of_assembleCommand {ts : List Token} {i : Instr} (h : assembleCommand ts = .ok i) : i.WellFormed := by
  unfold assembleCommand at h
  split at h
  · split at h
    · rename_i hc
      exact wellFormed_of_commandOf (le_of_mem_countsOf hc) h
    · cases h
  · cases h

theorem assembleCommand_of_counts {operands : List Token} {counts : List Nat} (h : countsOf operands = .ok counts)
    (name : List Char) : assembleCommand (.word name :: operands) = commandOf (name.map Char.toUpper) counts := by
  simp only [assembleCommand, h]

theorem assembleCommand_of_error {operands : List Token} {e : AsmError} (h : countsOf operands = .error e)
    (name : List Char) : assembleCommand (.word name :: operands) = .error e := by
  simp only [assembleCommand, h]

section Counts

variable {cs ds : List Char} {n m : Nat}

theorem countsOf_one (h : numberOf cs = .ok n) (hn : n ≤ 255) : countsOf [.word cs] = .ok [n] := by
  simp only [countsOf, numberList, numberBelow_of_lt h (Nat.lt_succ_of_le hn), Except.map]

theorem countsOf_one_tooLarge (h : numberOf cs = .ok n) (hn : 255 < n) : countsOf [.word cs] = .error .countTooLarge := by
  simp only [countsOf, numberList, numberBelow_of_le h (Nat.succ_le_of_lt hn), Except.map]

theorem countsOf_two (hc : numberOf cs = .ok n) (hd : numberOf ds = .ok m) (hn : n ≤ 255) (hm : m ≤ 255) :
    countsOf [.word cs, .comma, .word ds] = .ok [n, m] := by
  simp only [countsOf, numberList, numberBelow_of_lt hc (Nat.lt_succ_of_le hn), numberBelow_of_lt hd (Nat.lt_succ_of_le hm),
    Except.map]

theorem countsOf_two_tooLarge (hc : numberOf cs = .ok n) (hd : numberOf ds = .ok m) (h : 255 < n ∨ 255 < m) :
    countsOf [.word cs, .comma, .word ds] = .error .countTooLarge := by
  by_cases hn : 255 < n
  · simp only [countsOf, numberList, numberBelow_of_le hc (Nat.succ_le_of_lt hn)]
  · have hm : 255 < m := h.resolve_left hn
    simp only [countsOf, numberList, numberBelow_of_lt hc (Nat.lt_succ_of_le (Nat.not_lt.mp hn)),
      numberBelow_of_le hd (Nat.succ_le_of_lt hm), Except.map]

end Counts

/-- Each mnemonic without operands names its command. -/
theorem commandOf_plain {spelling : String} {i : Instr} (h : (spelling, i) ∈
    [("NOP", Instr.nop), ("ADD", .add), ("SUB", .sub), ("MUL", .mul), ("INV", .inv), ("DIV", .div), ("WIPE", .wipe)]) :
    commandOf spelling.toList [] = .ok i := by
  simp only [List.mem_cons, Prod.mk.injEq, List.not_mem_nil, or_false] at h
  rcases h with ⟨rfl, rfl⟩ | ⟨rfl, rfl⟩ | ⟨rfl, rfl⟩ | ⟨rfl, rfl⟩ | ⟨rfl, rfl⟩ | ⟨rfl, rfl⟩ | ⟨rfl, rfl⟩ <;> rfl

/-! The digits and bytes of a share file (R66 to R69) -/

theorem hexValue_hexDigit (hexCase : Config.HexCase) : ∀ n < 16, hexValue (hexDigit hexCase n) = some n := by
  cases hexCase <;> decide

/-- Two digits written are the byte read. -/
theorem hexPair_hexDigit (hexCase : Config.HexCase) (v : Byte) :
    hexPair (hexDigit hexCase (v.toNat / 16)) (hexDigit hexCase (v.toNat % 16)) = some v := by
  have hv := v.isLt
  simp only [hexPair, hexValue_hexDigit hexCase _ (show v.toNat / 16 < 16 by omega),
    hexValue_hexDigit hexCase _ (show v.toNat % 16 < 16 by omega), Nat.div_add_mod, BitVec.ofNat_toNat, BitVec.setWidth_eq]

theorem readHeader_hexDigit (hexCase : Config.HexCase) {k x : Byte} (hk : k ≠ 0) (hx : x ≠ 0) :
    readHeader (hexDigit hexCase (k.toNat / 16)) (hexDigit hexCase (k.toNat % 16)) (hexDigit hexCase (x.toNat / 16))
      (hexDigit hexCase (x.toNat % 16)) = .ok (k, x) := by
  simp only [readHeader, hexPair_hexDigit, if_neg hk, if_neg hx]

/-- Reducing a canonical value mod p and storing it gives the value. -/
theorem toHalf_modp_value {y : Half} (h : Canonical y) : toHalf (modp (value y)) = y := by
  rw [modp_of_lt _ (value_nonneg y) (Int.ofNat_lt.mpr h), toHalf, value, BitVec.ofInt_natCast, BitVec.ofNat_toNat,
    BitVec.setWidth_eq]

theorem yOfBytes_yBytes (y : Half) : yOfBytes (y.extractLsb' 0 8) (y.extractLsb' 8 8) = y := by
  simp (disch := rfl) only [yOfBytes, BitVec.extractLsb'_append_extractLsb'_eq_extractLsb', BitVec.extractLsb'_eq_self]

theorem readPayload_payloadBytes {ys : List Half} (h : ∀ y ∈ ys, Canonical y) : readPayload (payloadBytes ys) = .ok ys := by
  induction ys with
  | nil => rfl
  | cons y ys ih =>
    obtain ⟨hy, hys⟩ := List.forall_mem_cons.mp h
    simp only [payloadBytes, yBytes, toHalf_modp_value hy, List.cons_append, List.nil_append, readPayload, ih hys,
      yOfBytes_yBytes]

theorem length_payloadBytes (ys : List Half) : (payloadBytes ys).length = 2 * ys.length := by
  induction ys with
  | nil => rfl
  | cons y ys ih => simp [payloadBytes, yBytes, ih, Nat.mul_succ]

end Sys2Proof.Machine
end

section
/-! PROOFS. Statements of the family other: the encodings. -/

namespace Sys2Proof.Machine

/-- Settles O1: the word carries the command's fields, and those decode to it. -/
theorem commandWordRoundTrip : Obligations.CommandWordRoundTrip := fun _ h => decode_encode h

/-- Settles O3: a legal word selects its command's row, and a word that selects a row decodes to a command of it; so two rows that one
word selects are the row of one command. -/
theorem wordsSelectOpcodeTableRows : Obligations.WordsSelectOpcodeTableRows := by
  have hrow : ∀ (w : Word) (row : TableRow), row ∈ opcodeTable → w &&& row.mask = row.value →
      ∃ i, decode w = .ok i ∧ tableRow i = row := by
    intro w row hmem hsel
    obtain ⟨i, rfl⟩ := exists_tableRow_eq hmem
    exact exists_decode_of_and_mask hsel
  obtain ⟨-, hnoRow, -⟩ := illegalWordReportsIllegalCommand
  refine ⟨rfl, fun w i => and_mask_eq_of_decode, hrow, ?disjoint, hnoRow⟩
  case disjoint =>
    intro w x y hx hy hsx hsy
    obtain ⟨i, hi, rfl⟩ := hrow w x hx hsx
    obtain ⟨j, hj, rfl⟩ := hrow w y hy hsy
    obtain rfl : i = j := Except.ok.inj (hi.symm.trans hj)
    rfl

/-- Settles O5: the ten words, decoded. -/
theorem specWordsDecode : Obligations.SpecWordsDecode := by
  refine ⟨?_, ?_, ?_, ?_, ?_, ?_, ?_, ?_, ?_, ?_⟩ <;> rfl

/-- Settles O6: the counts of a line that assembles are at most 255, so its command is well formed; a count above 255 is what the
line's counts report. -/
theorem assemblerProducesOnlyLegalWords : Obligations.AssemblerProducesOnlyLegalWords := by
  refine ⟨fun ts i h => decode_encode (wellFormed_of_assembleCommand h), ?oneTooLarge, ?twoTooLarge, ?plain, ?eval, ?two⟩
  case oneTooLarge =>
    intro name cs n hcs hn
    exact assembleCommand_of_error (countsOf_one_tooLarge hcs hn) name
  case twoTooLarge =>
    intro name cs ds n m hcs hds h
    exact assembleCommand_of_error (countsOf_two_tooLarge hcs hds h) name
  case plain =>
    intro name spelling i hname hmem
    exact (assembleCommand_of_counts (operands := []) rfl name).trans (hname ▸ commandOf_plain hmem)
  case eval =>
    intro name cs k hname hcs hk
    rw [assembleCommand_of_counts (countsOf_one hcs hk), hname]
    rfl
  case two =>
    intro name cs ds n m hcs hds hn hm
    rw [assembleCommand_of_counts (countsOf_two hcs hds hn hm)]
    exact ⟨fun hname => hname ▸ rfl, fun hname => hname ▸ rfl⟩

/-- Settles O32: each header byte is read from its two digits, and each canonical y from its two bytes. -/
theorem shareFileRoundTrip : Obligations.ShareFileRoundTrip := by
  intro hexCase sh hk hx hys
  constructor
  · simp only [writeShare, hexByte, List.cons_append, List.nil_append, readShare, readHeader_hexDigit hexCase hk hx,
      readPayload_payloadBytes hys]
  · simp [writeShare, hexByte, length_payloadBytes]; omega

end Sys2Proof.Machine
end

section
/-! SUPPORT. What the statements about steps share: the invariants of STATUS under a control update, how a step moves the operands (A, B,
COEF, PX and PY), the answer of each agent's step, and what a pending command keeps. -/

namespace Sys2Proof.Machine

/-! The invariants of STATUS (R23) -/

theorem SameControl.statusInv {s t : State} (h : SameControl s t) (hs : StatusInv s) : StatusInv t := by
  rw [StatusInv, h.busy, h.done, h.err, h.errCode]
  exact hs

theorem errorNumber_ne_zero (e : ErrorCode) : errorNumber e ≠ 0 := by cases e <;> decide

/-- A completion clears BUSY, and while BUSY is 1 the other two bits are 0; so each update leaves at most one of the three. -/
theorem ControlUpdate.statusInv {s u : State} (h : ControlUpdate s u) (hs : StatusInv s) : StatusInv u := by
  obtain ⟨hbd, hbe, hde, hcode, hcodeLe⟩ := hs
  have hle := h.errCode_le hcodeLe
  cases h with
  | kept | discarded => exact ⟨hbd, hbe, hde, hcode, hle⟩
  | accepted w _ _ he => exact ⟨rfl, by simp [he], rfl, by simp [he], hle⟩
  | acknowledged d =>
    rw [writeStatus_eq] at hle ⊢
    refine ⟨?_, ?_, ?_, ?_, hle⟩
    · rw [← Bool.and_assoc, hbd, Bool.false_and]
    · rw [← Bool.and_assoc, hbe, Bool.false_and]
    · rw [Bool.and_assoc, Bool.and_left_comm (!_), ← Bool.and_assoc, hde, Bool.false_and]
    · cases d.getLsbD 2 with
      | false => simpa using hcode
      | true => simp
  | succeeded _ hb =>
    have he : s.err = false := by simpa [hb] using hbe
    exact ⟨rfl, rfl, he, hcode, hle⟩
  | failed _ hb e =>
    have hd : s.done = false := by simpa [hb] using hbd
    exact ⟨rfl, rfl, by simp [hd], ⟨fun _ => rfl, fun _ => errorNumber_ne_zero e⟩, hle⟩
  | reset => exact ⟨rfl, rfl, rfl, by simp, hle⟩

/-! The operands: A, B, COEF, PX and PY -/

/-- The operand registers and the operand arrays are the same. -/
structure SameOperands (s t : State) : Prop where
  a : t.a = s.a
  b : t.b = s.b
  coef : t.coef = s.coef
  px : t.px = s.px
  py : t.py = s.py

theorem SameOperands.getBank {s t : State} (h : SameOperands s t) {bank : BankName} (hn : bank ≠ .sy) :
    getBank t bank = getBank s bank := by
  cases bank with
  | coef => exact h.coef
  | px => exact h.px
  | py => exact h.py
  | sy => exact absurd rfl hn

/-- What a step can do to the operands (R18, R19, R30 to R32), as an update of the state before it. -/
inductive OperandUpdate (s : State) : State → Prop where
  | kept : OperandUpdate s s
  | storedA (d : Word) (hw : HostWrites s 0x0008 d) (hb : s.busy = false) : OperandUpdate s (storeA d s)
  | storedB (d : Word) (hw : HostWrites s 0x000C d) (hb : s.busy = false) : OperandUpdate s (storeB d s)
  | storedEntry (bank : BankName) (hn : bank ≠ .sy) (i : Fin Config.arrayDepth) (d : Word)
      (hw : HostWrites s (offsetOf (.entry bank i)) d) (hb : s.busy = false) : OperandUpdate s (storeEntry bank i.val d s)
  | wipedCoef (k n : Nat) (hc : Completes s (.split k n)) : OperandUpdate s (wipeCoef s)
  | wiped (hc : Completes s .wipe) : OperandUpdate s (wipeData s)
  | reset (ht : turnOf s = .reset) : OperandUpdate s (resetBlock s)

theorem SameOperands.respond {s t : State} (h : SameOperands s t) (x : Response) (ops : List HostOp) :
    SameOperands s (respond x (hostContinues ops t)) :=
  ⟨h.a, h.b, h.coef, h.px, h.py⟩

theorem sameOperands_of_busRead {addr : Offset} {s t : State} {x : Response} (h : busRead addr s = (x, t)) :
    SameOperands s t := by
  rcases busRead_cases addr s t x h with rfl | ⟨-, -, rfl⟩ <;> exact ⟨rfl, rfl, rfl, rfl, rfl⟩

/-- A host write in its turn updates the operands as `OperandUpdate` lists. -/
theorem operandUpdate_of_writeEffect {s t : State} {addr : Offset} {d : Word} (hw : HostWrites s addr d)
    (he : WriteEffect addr d (afterTurn s) t) : ∃ u, OperandUpdate s u ∧ SameOperands u t := by
  cases he with
  | ignored | accepted | status | discarded => exact ⟨s, .kept, rfl, rfl, rfl, rfl, rfl⟩
  | storeA hl hb =>
    obtain rfl := eq_offsetOf_of_targetOf hl
    exact ⟨_, .storedA d hw hb, rfl, rfl, rfl, rfl, rfl⟩
  | storeB hl hb =>
    obtain rfl := eq_offsetOf_of_targetOf hl
    exact ⟨_, .storedB d hw hb, rfl, rfl, rfl, rfl, rfl⟩
  | storeBank bank hn i hl hb =>
    obtain rfl := eq_offsetOf_of_targetOf hl
    exact ⟨_, .storedEntry bank hn i d hw hb, by cases bank <;> exact ⟨rfl, rfl, rfl, rfl, rfl⟩⟩

/-- A command changes an operand only by SPLIT's wipe of COEF or by WIPE (R98). -/
theorem operandUpdate_of_execEffect {s t : State} {i : Instr} (hc : Completes s i) (he : ExecEffect (afterTurn s) i t) :
    ∃ u, OperandUpdate s u ∧ SameOperands u t := by
  cases he with
  | nop | result | failure => exact ⟨s, .kept, rfl, rfl, rfl, rfl, rfl⟩
  | splitDone k n | splitFailed k n => exact ⟨_, .wipedCoef k n hc, rfl, rfl, rfl, rfl, rfl⟩
  | wipe => exact ⟨_, .wiped hc, rfl, rfl, rfl, rfl, rfl⟩

/-- Every step updates the operands in one of the ways of `OperandUpdate`. -/
theorem step_operands {s t : State} (h : step s = .next t) : ∃ u, OperandUpdate s u ∧ SameOperands u t := by
  cases step_cases h with
  | hostIdle | engineIdle | illegal => exact ⟨s, .kept, rfl, rfl, rfl, rfl, rfl⟩
  | hostRead _ op rest _ addr _ x u hr =>
    obtain ⟨h1, h2, h3, h4, h5⟩ := (sameOperands_of_busRead hr).respond x (hostAfter op rest x)
    exact ⟨s, .kept, h1, h2, h3, h4, h5⟩
  | hostWrite ht addr d rest hh x u hw =>
    obtain ⟨v, hv, hc⟩ := operandUpdate_of_writeEffect (hostWrites_of_head ht hh) (busWrite_cases hw)
    exact ⟨v, hv, hc.respond x rest⟩
  | completed ht hb i hd _ he => exact operandUpdate_of_execEffect ⟨ht, hb, hd⟩ he
  | reset ht => exact ⟨_, .reset ht, rfl, rfl, rfl, rfl, rfl⟩

theorem getBank_respond (x : Response) (ops : List HostOp) (s : State) (bank : BankName) :
    getBank (respond x (hostContinues ops s)) bank = getBank s bank := by
  cases bank <;> rfl

theorem getBank_afterTurn (s : State) (bank : BankName) : getBank (afterTurn s) bank = getBank s bank := by
  cases bank <;> rfl

theorem getBank_storeEntry_same (bank : BankName) (i : Nat) (d : Word) (s : State) :
    getBank (storeEntry bank i d s) bank = writeEntry (getBank s bank) i (lowHalf d) := by
  rw [storeEntry, getBank_setBank, if_pos rfl]

theorem getBank_storeEntry_other {bank other : BankName} (h : other ≠ bank) (i : Nat) (d : Word) (s : State) :
    getBank (storeEntry bank i d s) other = getBank s other := by
  rw [storeEntry, getBank_setBank, if_neg h]

/-- The step in which the host writes a location: the location's write, and the response. -/
theorem step_of_locWrite {s t : State} {l : Loc} {d : Word} (h : step s = .next t) (hw : HostWrites s (offsetOf l) d) :
    ∃ x rest, t = respond x (hostContinues rest (writeLoc l d (afterTurn s))) := by
  obtain ⟨x, u, rest, hu, rfl⟩ := step_of_hostWrites h hw
  obtain ⟨-, rfl⟩ := Prod.mk.inj ((busWrite_offsetOf l d (afterTurn s)).symm.trans hu)
  exact ⟨x, rest, rfl⟩

/-! What stands outside the block -/

/-- A host write touches nothing outside the block. -/
theorem sameOutside_of_writeEffect {addr : Offset} {d : Word} {s t : State} (h : WriteEffect addr d s t) : SameOutside s t := by
  cases h with
  | ignored | accepted | status | discarded | storeA | storeB => exact ⟨rfl, rfl, rfl, rfl⟩
  | storeBank bank _ i => exact ⟨storeEntry_host s bank i.val d, storeEntry_turns s bank i.val d,
      storeEntry_responses s bank i.val d, storeEntry_draws s bank i.val d⟩

/-- A read gives no response by itself and uses up no turn; the host's turn does both. -/
theorem turns_and_responses_of_busRead {addr : Offset} {s t : State} {x : Response} (h : busRead addr s = (x, t)) :
    t.turns = s.turns ∧ t.responses = s.responses := by
  rcases busRead_cases addr s t x h with rfl | ⟨-, -, rfl⟩ <;> exact ⟨rfl, rfl⟩

/-! What each agent's step answers -/

theorem turnOf_of_cons {s : State} {t : Turn} {rest : List Turn} (h : s.turns = t :: rest) : turnOf s = t := by
  simp only [turnOf, h]

theorem turnOf_of_nil {s : State} (h : s.turns = []) : turnOf s = defaultTurn s := by
  simp only [turnOf, h]

theorem afterTurn_of_cons {s : State} {t : Turn} {rest : List Turn} (h : s.turns = t :: rest) :
    afterTurn s = { s with turns := rest } := by
  simp only [afterTurn, h, List.tail_cons]

theorem afterTurn_of_nil {s : State} (h : s.turns = []) : afterTurn s = s := by
  simp only [afterTurn, h, List.tail_nil]
  rw [← h]

/-- The Engine's step with a legal command pending is the command's own meaning (R101). -/
theorem step_eq_exec {s : State} {i : Instr} (hc : Completes s i) : step s = exec i (afterTurn s) := by
  obtain ⟨ht, hb, hd⟩ := hc
  rw [step_eq_takeTurn, ht, takeTurn, engineTurn, afterTurn_busy, if_pos hb, complete_of_decode (s := afterTurn s) hd]

/-- The Engine's turn passes while no command is pending. -/
theorem step_eq_afterTurn_of_engine {s : State} (ht : turnOf s = .engine) (hb : s.busy = false) : step s = .next (afterTurn s) := by
  rw [step_eq_takeTurn, ht, takeTurn, engineTurn, afterTurn_busy, hb, if_neg Bool.false_ne_true]

/-- The host's step is its next transaction and the response to it (R38). -/
theorem step_eq_respond {s u : State} {op : HostOp} {rest : List HostOp} {x : Response} (ht : turnOf s = .host)
    (hh : s.host = op :: rest) (hx : transact op (afterTurn s) = (x, u)) :
    step s = .next (respond x (hostContinues (hostAfter op rest x) u)) := by
  rw [step_eq_takeTurn, ht]
  simp only [takeTurn, hostTurn, afterTurn_host, hh, hx]

/-- The host's turn passes when it has no transaction. -/
theorem step_eq_afterTurn_of_host {s : State} (ht : turnOf s = .host) (hh : s.host = []) : step s = .next (afterTurn s) := by
  rw [step_eq_takeTurn, ht]
  simp only [takeTurn, hostTurn, afterTurn_host, hh]

theorem complete_answers (s : State) : ∃ t, complete s = .next t := by
  cases hd : decode s.cmdReg with
  | ok i =>
    obtain ⟨t, ht, -⟩ := exec_effect i s
    exact ⟨t, (complete_of_decode hd).trans ht⟩
  | error e => exact ⟨_, complete_of_illegal hd⟩

theorem step_answers (s : State) : ∃ t, step s = .next t := by
  rw [step_eq_takeTurn]
  cases turnOf s with
  | host => exact ⟨_, rfl⟩
  | engine =>
    rw [takeTurn, engineTurn]
    split
    · exact complete_answers _
    · exact ⟨_, rfl⟩
  | reset => exact ⟨_, rfl⟩

theorem core_run_one (s : State) : core.run 1 s = step s := by
  obtain ⟨t, h⟩ := step_answers s
  exact (core_run_succ 0 h).trans h.symm

/-! The word of STATUS (R23) -/

theorem statusWord_flags (s : State) : (statusWord s).getLsbD 0 = s.busy ∧ (statusWord s).getLsbD 1 = s.done ∧
    (statusWord s).getLsbD 2 = s.err ∧ (statusWord s).getLsbD 3 = s.drop := by
  simp only [statusWord, BitVec.getLsbD_append, BitVec.getLsbD_ofBool]
  simp

theorem statusWord_errCode (s : State) : (statusWord s).extractLsb' 8 4 = s.errCode := by
  simp (disch := decide) only [statusWord, BitVec.extractLsb'_append_eq_of_le]
  exact BitVec.extractLsb'_append_eq_right

theorem statusWord_reserved_low (s : State) : (statusWord s).extractLsb' 4 4 = 0 := by
  simp (disch := decide) only [statusWord, BitVec.extractLsb'_append_eq_of_le]
  exact BitVec.extractLsb'_append_eq_right

theorem statusWord_reserved_high (s : State) : (statusWord s).extractLsb' 14 18 = 0 := by
  simp (disch := decide) only [statusWord, BitVec.extractLsb'_append_eq_of_le]
  rfl

/-- A poll sees BUSY (R65). -/
theorem showsBusy_statusWord (s : State) : showsBusy (.okay (statusWord s)) = s.busy := by
  obtain ⟨hbusy, -⟩ := statusWord_flags s
  exact hbusy

/-! A pending command -/

/-- CMDREG, the operands and the results are the same: all that a command reads or writes beside STATUS. -/
structure SameData (s t : State) : Prop where
  inputs : SameInputs s t
  coef : t.coef = s.coef
  sy : t.sy = s.sy
  r : t.r = s.r

theorem SameInputs.trans {s t u : State} (h : SameInputs s t) (h' : SameInputs t u) : SameInputs s u := by
  obtain ⟨hcmd, ha, hb, hpx, hpy⟩ := h
  obtain ⟨hcmd', ha', hb', hpx', hpy'⟩ := h'
  exact ⟨hcmd'.trans hcmd, ha'.trans ha, hb'.trans hb, hpx'.trans hpx, hpy'.trans hpy⟩

theorem SameData.refl (s : State) : SameData s s := ⟨⟨rfl, rfl, rfl, rfl, rfl⟩, rfl, rfl, rfl⟩

theorem SameData.trans {s t u : State} (h : SameData s t) (h' : SameData t u) : SameData s u :=
  ⟨h.inputs.trans h'.inputs, h'.coef.trans h.coef, h'.sy.trans h.sy, h'.r.trans h.r⟩

/-- Only the host moves in a step that leaves a command pending (R24). -/
theorem turnOf_eq_host_of_busy {s t : State} (h : step s = .next t) (hb : t.busy = true) : turnOf s = .host := by
  obtain ⟨-, -, -, hengine, hreset, -⟩ := busyFollowsTheCommand s t h
  cases ht : turnOf s with
  | host => rfl
  | engine => simp [hengine ht] at hb
  | reset => simp [hreset ht] at hb

/-- While a command stays pending, the host's writes to what it works on are discarded (R27, R34). -/
theorem sameData_of_pending {s t : State} (hs : s.busy = true) (h : step s = .next t) (hb : t.busy = true) : SameData s t := by
  have ht := turnOf_eq_host_of_busy h hb
  have hidle : s.busy ≠ false := by simp [hs]
  have hno {i : Instr} : ¬ Completes s i := fun ⟨hengine, _⟩ => by simp [hengine] at ht
  have hcmd : t.cmdReg = s.cmdReg := by
    obtain ⟨u, hu, hc⟩ := step_control h
    rw [hc.cmdReg]
    cases hu with
    | kept | acknowledged | discarded | succeeded | failed => rfl
    | accepted _ _ hb => exact absurd hb hidle
    | reset hr => simp [hr] at ht
  have hop : SameOperands s t := by
    obtain ⟨u, hu, hc⟩ := step_operands h
    cases hu with
    | kept => exact hc
    | storedA _ _ hb | storedB _ _ hb | storedEntry _ _ _ _ _ hb => exact absurd hb hidle
    | wipedCoef _ _ hcs | wiped hcs => exact absurd hcs hno
    | reset hr => simp [hr] at ht
  obtain ⟨hr, hsy⟩ | ⟨i, hc, -⟩ | hr := step_results h
  · exact ⟨⟨hcmd, hop.a, hop.b, hop.px, hop.py⟩, hop.coef, hsy, hr⟩
  · exact absurd hc hno
  · simp [hr] at ht

/-- A step uses up one listed turn, if there is one. -/
theorem turns_of_step {s t : State} (h : step s = .next t) : t.turns = s.turns.tail := by
  cases step_cases h with
  | hostIdle | engineIdle | illegal | reset => rfl
  | hostRead _ _ _ _ _ _ _ u hr =>
    obtain ⟨hturns, -⟩ := turns_and_responses_of_busRead hr
    exact hturns
  | hostWrite _ _ _ _ _ _ u hw =>
    obtain ⟨-, hturns, -⟩ := sameOutside_of_writeEffect (busWrite_cases hw)
    exact hturns
  | completed _ _ i _ _ he =>
    obtain ⟨-, hturns, -⟩ := he.sameOutside
    exact hturns

/-- The Engine's turn ends the pending command. -/
theorem step_completes {s : State} (ht : turnOf s = .engine) : ∃ t, step s = .next t ∧ t.busy = false := by
  obtain ⟨t, h⟩ := step_answers s
  obtain ⟨-, -, -, hengine, -⟩ := busyFollowsTheCommand s t h
  exact ⟨t, h, hengine ht⟩

/-- A pending command stays pending over the host's turn. -/
theorem step_of_host_turn {s : State} (hs : s.busy = true) (ht : turnOf s = .host) : ∃ t, step s = .next t ∧ t.busy = true := by
  obtain ⟨t, h⟩ := step_answers s
  obtain ⟨-, hfalls, -⟩ := busyFollowsTheCommand s t h
  refine ⟨t, h, Bool.eq_true_of_not_eq_false fun hb => ?_⟩
  simpa [ht] using hfalls hs hb

/-- The pending command's completion comes n steps after `s`, in the step from `u` to `t`, on the data of `s`. -/
structure CompletesAfter (n : Nat) (s u t : State) : Prop where
  run : core.run n s = .next u
  engine : turnOf u = .engine
  pending : u.busy = true
  sameData : SameData s u
  run_succ : core.run (n + 1) s = .next t
  idle : t.busy = false

theorem completesAfter_zero {s : State} (hs : s.busy = true) (ht : turnOf s = .engine) : ∃ t, CompletesAfter 0 s s t := by
  obtain ⟨t, h, hb⟩ := step_completes ht
  exact ⟨t, core_run_zero s, ht, hs, .refl s, (core_run_one s).trans h, hb⟩

theorem CompletesAfter.succ {n : Nat} {s v u t : State} (hc : CompletesAfter n v u t) (h : step s = .next v)
    (hd : SameData s v) : CompletesAfter (n + 1) s u t :=
  ⟨(core_run_succ n h).trans hc.run, hc.engine, hc.pending, hd.trans hc.sameData, (core_run_succ (n + 1) h).trans hc.run_succ,
    hc.idle⟩

/-- With no reset listed, each turn is the Engine's, which completes the command, or the host's, which leaves it pending with one turn
less; when no turn is listed the Engine moves (R123). -/
theorem exists_completesAfter {turns : List Turn} (hreset : .reset ∉ turns) {s : State} (hts : s.turns = turns)
    (hs : s.busy = true) : ∃ n u t, n ≤ turns.length ∧ CompletesAfter n s u t := by
  induction turns generalizing s with
  | nil =>
    have ht : turnOf s = .engine := by rw [turnOf_of_nil hts, defaultTurn, if_pos hs]
    obtain ⟨t, hc⟩ := completesAfter_zero hs ht
    exact ⟨0, s, t, Nat.zero_le _, hc⟩
  | cons turn rest ih =>
    have ht := turnOf_of_cons hts
    cases turn with
    | engine =>
      obtain ⟨t, hc⟩ := completesAfter_zero hs ht
      exact ⟨0, s, t, Nat.zero_le _, hc⟩
    | host =>
      obtain ⟨v, h, hv⟩ := step_of_host_turn hs ht
      obtain ⟨n, u, t, hn, hc⟩ := ih (List.not_mem_of_not_mem_cons hreset) ((turns_of_step h).trans (by rw [hts, List.tail_cons])) hv
      exact ⟨n + 1, u, t, Nat.succ_le_succ hn, hc.succ h (sameData_of_pending hs h hv)⟩
    | reset => exact absurd List.mem_cons_self hreset

end Sys2Proof.Machine
end

section
/-! PROOFS. Statements of the family other: steps, STATUS, the bus and the operands. -/

namespace Sys2Proof.Machine

/-! STATUS -/

/-- Settles O16: the step makes one of the control updates, and each keeps the invariants. -/
theorem statusInvariantsKept : Obligations.StatusInvariantsKept := by
  intro s t hs h
  obtain ⟨u, hu, hc⟩ := step_control h
  exact hc.statusInv (hu.statusInv hs)

/-- Settles O15: every field of STATUS and every result is 0 after reset. -/
theorem resetMeetsInvariants : Obligations.ResetMeetsInvariants :=
  ⟨by decide, canonicalResults_of_zero rfl rfl⟩

/-- Settles O17: the word is put together field by field, and STATUS is no data, so its read never depends on BUSY. -/
theorem statusWordLayout : Obligations.StatusWordLayout := by
  intro s
  obtain ⟨hbusy, hdone, herr, hdrop⟩ := statusWord_flags s
  exact ⟨busRead_stored (l := .status) (.inr rfl), hbusy, hdone, herr, hdrop, statusWord_reserved_low s, statusWord_errCode s,
    statusWord_errorClass s, statusWord_reserved_high s⟩

/-- Settles O22: with ERR = 1 no command is pending and none is accepted, so only an acknowledge or a reset could end the record. -/
theorem errorRecordIsKept : Obligations.ErrorRecordIsKept := by
  intro s t ⟨_, hbe, _⟩ he h hreset hack
  have hidle : s.busy = false := by simpa [he] using hbe
  obtain ⟨u, hu, hc⟩ := step_control h
  rw [hc.err, hc.errCode, hc.cmdReg]
  cases hu with
  | kept | discarded => exact ⟨he, rfl, rfl⟩
  | accepted _ _ _ he' => simp [he] at he'
  | acknowledged d hw =>
    rw [writeStatus_err, writeStatus_errCode, hack d hw, if_neg Bool.false_ne_true, if_neg Bool.false_ne_true]
    exact ⟨he, rfl, rfl⟩
  | succeeded _ hb | failed _ hb => simp [hidle] at hb
  | reset ht => exact absurd ht hreset

/-! Steps and the life of a command -/

/-- Settles O9: each agent's turn answers, the Engine's because every command and the illegal word answer. -/
theorem stepAnswersEveryState : Obligations.StepAnswersEveryState := step_answers

/-- Settles O7: the turn that `turnOf` names is taken in `afterTurn`, which has lost that turn's entry. -/
theorem stepCompletesDecodedCommand : Obligations.StepCompletesDecodedCommand := by
  refine ⟨?engine, ?engineDefault, ?engineIdle, ?read, ?write, ?poll, fun s => step_eq_afterTurn_of_host⟩
  case engine =>
    intro s rest i hb hts hd
    rw [step_eq_exec ⟨turnOf_of_cons hts, hb, hd⟩, afterTurn_of_cons hts]
  case engineDefault =>
    intro s i hb hts hd
    have ht : turnOf s = .engine := by rw [turnOf_of_nil hts, defaultTurn, if_pos hb]
    rw [step_eq_exec ⟨ht, hb, hd⟩, afterTurn_of_nil hts]
  case engineIdle =>
    intro s rest hb hts
    rw [step_eq_afterTurn_of_engine (turnOf_of_cons hts) hb, afterTurn_of_cons hts]
  case read =>
    intro s addr ops ht hh x u hx
    obtain ⟨-, hresp⟩ := turns_and_responses_of_busRead hx
    rw [step_eq_respond ht hh hx, respond, hostContinues, hresp]
    rfl
  case write =>
    intro s addr data ops ht hh x u hx
    obtain ⟨-, -, hresp, -⟩ := sameOutside_of_writeEffect (busWrite_cases hx)
    rw [step_eq_respond ht hh hx, respond, hostContinues, hresp]
    rfl
  case poll =>
    intro s ops ht hh
    have hx : transact .poll (afterTurn s) = (.okay (statusWord s), afterTurn s) := busRead_stored (l := .status) (.inr rfl)
    rw [step_eq_respond ht hh hx, hostAfter, showsBusy_statusWord]
    rfl

/-- Settles O8: the host's turn accepts the word, and the Engine's turn performs the command that the word decodes to. -/
theorem commandLifeCycle : Obligations.CommandLifeCycle := by
  intro s i ops ts hwf hb he hh hts
  have hx : transact (.write 0x0000 (encode i)) (afterTurn s) = (.okay 0, accept (encode i) (afterTurn s)) := by
    rw [transact, show busWrite 0x0000 (encode i) _ = _ from busWrite_offsetOf .cmd _ _, writeLoc,
      writeCmd_accepted (s := afterTurn s) hb he]
  have hstep := step_eq_respond (turnOf_of_cons hts) hh hx
  rw [afterTurn_of_cons hts, hostAfter] at hstep
  have hc : Completes (respond (.okay 0) (hostContinues ops (accept (encode i) { s with turns := .engine :: ts }))) i :=
    ⟨rfl, rfl, decode_encode hwf⟩
  refine ⟨hstep, ?_⟩
  rw [core_run_succ 1 hstep, core_run_one, step_eq_exec hc]
  rfl

/-- Settles O12: only the host moves in such a step, and what it writes is discarded (`sameData_of_pending`). -/
theorem pendingCommandFreezesData : Obligations.PendingCommandFreezesData := by
  intro s t hs h hb
  obtain ⟨hin, hcoef, hsy, hr⟩ := sameData_of_pending hs h hb
  exact ⟨hin, hcoef, hsy, hr⟩

/-- Settles O11: the completion that `exists_completesAfter` finds by induction on the listed turns. -/
theorem acceptedCommandCompletes : Obligations.AcceptedCommandCompletes := by
  intro s hs hreset
  obtain ⟨n, u, t, hn, hrun, hengine, hpending, ⟨hin, hcoef, hsy, hr⟩, hsucc, hidle⟩ := exists_completesAfter hreset rfl hs
  exact ⟨n, u, t, hn, hrun, hengine, hpending, hin, hcoef, hsy, hr, hsucc, hidle⟩

/-! The bus -/

/-- Settles O25: the map takes each location's offset to it, and an offset that leads to a location is its own. -/
theorem addressMap : Obligations.AddressMap :=
  ⟨targetOf_offsetOf, fun _ _ => eq_offsetOf_of_targetOf, rfl, rfl, rfl, rfl, rfl, rfl, fun i =>
    ⟨offsetOf_entry_toNat .coef i, offsetOf_entry_toNat .px i, offsetOf_entry_toNat .py i, offsetOf_entry_toNat .sy i⟩⟩

/-- Settles O28: the write replaces one array by one that differs in the entry, and an idle block reads the stored word. -/
theorem storedEntryIsReadBack : Obligations.StoredEntryIsReadBack := by
  intro s d x y i j hb hx
  rw [busWrite_entry_stored hx i d hb, busRead_stored (.inl ((setBank_busy s x _).trans hb)), busRead_stored (.inl hb), locWord,
    getBank_setBank]
  by_cases hxy : x = y
  · subst hxy
    rw [if_pos rfl, readEntry_writeEntry]
    by_cases hij : i = j
    · subst hij
      rw [if_pos ⟨rfl, i.isLt⟩, if_pos ⟨rfl, rfl⟩, zext32]
    · rw [if_neg fun h => hij (Fin.ext h.1), if_neg fun h => hij h.2]
      rfl
  · rw [if_neg (Ne.symm hxy), if_neg fun h => hxy h.1]
    rfl

/-! The operands -/

/-- Settles O33: of the operand updates only the store of the register, WIPE and reset change it. -/
theorem operandRegistersChangeOnlyByHost : Obligations.OperandRegistersChangeOnlyByHost := by
  intro s t h
  obtain ⟨u, hu, hc⟩ := step_operands h
  refine ⟨?a, ?b, ?writeA, ?writeB⟩
  case a =>
    rw [hc.a]
    intro hne
    cases hu with
    | storedA d hw hb => exact .inr (.inr ⟨d, hw, hb, lowHalf_eq_extractLsb' d⟩)
    | wiped hcw => exact .inr (.inl ⟨hcw, rfl⟩)
    | reset ht => exact .inl ⟨ht, rfl⟩
    | kept | storedB | storedEntry | wipedCoef => simp at hne
  case b =>
    rw [hc.b]
    intro hne
    cases hu with
    | storedB d hw hb => exact .inr (.inr ⟨d, hw, hb, lowHalf_eq_extractLsb' d⟩)
    | wiped hcw => exact .inr (.inl ⟨hcw, rfl⟩)
    | reset ht => exact .inl ⟨ht, rfl⟩
    | kept | storedA | storedEntry | wipedCoef => simp at hne
  case writeA =>
    intro d hw hb
    obtain ⟨x, rest, rfl⟩ := step_of_locWrite (l := .a) h hw
    rw [writeLoc, writeData_stored (s := afterTurn s) hb]
    exact ⟨lowHalf_eq_extractLsb' d, rfl⟩
  case writeB =>
    intro d hw hb
    obtain ⟨x, rest, rfl⟩ := step_of_locWrite (l := .b) h hw
    rw [writeLoc, writeData_stored (s := afterTurn s) hb]
    exact ⟨lowHalf_eq_extractLsb' d, rfl⟩

/-- Settles O35: of the operand updates only the store of an entry, WIPE, reset and SPLIT's wipe change an array. -/
theorem operandArraysChangeOnlyByHost : Obligations.OperandArraysChangeOnlyByHost := by
  intro s t h bank hn
  obtain ⟨u, hu, hc⟩ := step_operands h
  constructor
  · rw [hc.getBank hn]
    intro hne
    cases hu with
    | kept => exact absurd rfl hne
    | storedA | storedB => cases bank <;> exact absurd rfl hne
    | storedEntry stored _ i d hw hb =>
      obtain rfl : stored = bank := not_not.mp fun hs => hne (getBank_storeEntry_other (Ne.symm hs) i.val d s)
      refine .inr (.inr (.inr ⟨i, d, hw, hb, ?_⟩))
      rw [getBank_storeEntry_same, lowHalf_eq_extractLsb']
    | wipedCoef k n hcs =>
      cases bank with
      | coef => exact .inr (.inr (.inl ⟨rfl, k, n, hcs⟩))
      | px | py | sy => exact absurd rfl hne
    | wiped hcw => exact .inr (.inl hcw)
    | reset ht => exact .inl ht
  · intro i d hw hb
    obtain ⟨x, rest, rfl⟩ := step_of_locWrite h hw
    rw [writeLoc_entry hn, writeData_stored (s := afterTurn s) hb, getBank_respond, getBank_storeEntry_same,
      getBank_afterTurn, lowHalf_eq_extractLsb']
    refine ⟨rfl, fun other ho => ?_⟩
    rw [getBank_respond, getBank_storeEntry_other ho, getBank_afterTurn]

end Sys2Proof.Machine
end
